-- ==== Sys2Proof/Word.lean ====
section
/-! DEFINITION. The one word type of the part: the byte of a link, of a reply, of take memory and of rendition memory. -/

namespace Sys2Proof

/-- Eight bits: what one link transfer moves (R183) and what one address of a memory holds. -/
abbrev Byte := BitVec 8

end Sys2Proof
end

