-- ==== Sys2Proof/Syntax.lean ====
section
/-! DEFINITION. What reaches the part from outside: the 38 requests of the link frames (R187) and the 54 commands of the
opcode table. A command is one whole and indivisible step of the part (spec/95_what_each_step_holds.md). -/

namespace Sys2Proof

/-- The three link ports, Link A, Link B and Link C. -/
inductive Port where
  | a | b | c
  deriving DecidableEq, Repr

/-- Why the part was reset (R191). -/
inductive ResetCause where
  | powerOn | pin
  deriving DecidableEq, Repr

/-- The two strap pins of one port, as they stand when a device reset ends (R180). -/
structure Straps where
  strap1 : Bool
  strap0 : Bool
  deriving DecidableEq, Repr

/-- The six fields of a rendition profile (R7). -/
structure Profile where
  bmin  : Nat
  bsus  : Nat
  bpeak : Nat
  cmax  : Nat
  ts    : Nat
  d     : Nat
  deriving DecidableEq, Repr

/-- The six fields of a segment of a splice list (R21). -/
structure Segment where
  take    : Nat
  start   : Nat
  length  : Nat
  fadeIn  : Nat
  fadeOut : Nat
  gap     : Nat
  deriving DecidableEq, Repr

/-- Five signed loudness values, in the order R6 and R187 give them: a title's fields, or the values of a SET-TITLE-PARAMS. -/
structure Loudness where
  target    : Int
  tolerance : Int
  ceiling   : Int
  absGate   : Int
  silence   : Int
  deriving DecidableEq, Repr

/-- A request with its operands, as a frame carries it (R187). `th` is the title handle byte of the header, present for the
requests that use it (R185). Numbers are what the frame's bytes spell; no range is assumed. -/
inductive Request where
  -- class TAKE
  | openTake (th : Nat)
  | writeBlock (th take block : Nat) (data : List Byte) (crc : BitVec 16)
  | closeTake (th take tail : Nat)
  | discardFirst (th take index : Nat)
  | discardLast (th take index : Nat)
  | discardCommit (th : Nat)
  -- class PLAN
  | registerTitle (catalogue : Nat)
  | setTitleParams (th : Nat) (mask : Byte) (values : Loudness)
  | setProfile (th index : Nat) (profile : Profile)
  | setProfileCount (th count : Nat)
  | setRoomTone (th take start length : Nat)
  | clearRoomTone (th : Nat)
  | holdTitle (th : Nat)
  | releaseTitle (th : Nat)
  | finalizeTitle (th : Nat)
  | retireTitle (th : Nat)
  | defineChapter (th chapter : Nat)
  | deleteChapter (th chapter : Nat)
  | setChapterPads (th chapter head tail : Nat)
  | insertSegment (th chapter position : Nat) (segment : Segment)
  | replaceSegment (th chapter position : Nat) (segment : Segment)
  | removeSegment (th chapter position : Nat)
  -- class RENDER
  | queueRender (th chapter priority : Nat)
  | cancelRender (th chapter : Nat)
  | setWheel (e0 e1 e2 e3 : Nat)
  | setLanes (lanes : Byte)
  | setHoldLimit (seconds : Int)
  -- class READ
  | openRead (th chapter rendition : Nat)
  | readRange (th slot generation offset length : Nat)
  | closeRead (th slot generation : Nat)
  -- class QUERY
  | titleInfo (th : Nat)
  | chapterInfo (th chapter : Nat)
  | takeInfo (th take first : Nat)
  | laneInfo
  | popNotice (list : Nat)
  | setNoticeMask (lists : Byte)
  | deviceStatus
  | portReset
  deriving DecidableEq, Repr

/-- The commands, one constructor per row of spec/opcode_table.json.

A request's command is the whole select-to-deselect span in which the controller of port `p` sends that request's frame with
tag `tag` (or the end of the span that `transactionBegin` opened). `transaction` is a span given by its bytes. The others are
the events of the lines, of the clocks and of the units inside the part. -/
inductive Instr where
  /-- R191: the reset ends, with its cause and the straps as they stand. -/
  | deviceReset (cause : ResetCause) (strapsA strapsB strapsC : Straps)
  /-- R184: the span ends; `rx` are the whole bytes received, the first included, and `extraBits` the bits after the last one. -/
  | transaction (p : Port) (rx : List Byte) (extraBits : Nat)
  /-- R190: assertion of PRST. -/
  | portResetLine (p : Port)
  | openTake (p : Port) (tag : Byte) (th : Nat)
  | writeBlock (p : Port) (tag : Byte) (th take block : Nat) (data : List Byte) (crc : BitVec 16)
  | closeTake (p : Port) (tag : Byte) (th take tail : Nat)
  | discardFirst (p : Port) (tag : Byte) (th take index : Nat)
  | discardLast (p : Port) (tag : Byte) (th take index : Nat)
  | discardCommit (p : Port) (tag : Byte) (th : Nat)
  | registerTitle (p : Port) (tag : Byte) (catalogue : Nat)
  | setTitleParams (p : Port) (tag : Byte) (th : Nat) (mask : Byte) (values : Loudness)
  | setProfile (p : Port) (tag : Byte) (th index : Nat) (profile : Profile)
  | setProfileCount (p : Port) (tag : Byte) (th count : Nat)
  | setRoomTone (p : Port) (tag : Byte) (th take start length : Nat)
  | clearRoomTone (p : Port) (tag : Byte) (th : Nat)
  | holdTitle (p : Port) (tag : Byte) (th : Nat)
  | releaseTitle (p : Port) (tag : Byte) (th : Nat)
  | finalizeTitle (p : Port) (tag : Byte) (th : Nat)
  | retireTitle (p : Port) (tag : Byte) (th : Nat)
  | defineChapter (p : Port) (tag : Byte) (th chapter : Nat)
  | deleteChapter (p : Port) (tag : Byte) (th chapter : Nat)
  | setChapterPads (p : Port) (tag : Byte) (th chapter head tail : Nat)
  | insertSegment (p : Port) (tag : Byte) (th chapter position : Nat) (segment : Segment)
  | replaceSegment (p : Port) (tag : Byte) (th chapter position : Nat) (segment : Segment)
  | removeSegment (p : Port) (tag : Byte) (th chapter position : Nat)
  | queueRender (p : Port) (tag : Byte) (th chapter priority : Nat)
  | cancelRender (p : Port) (tag : Byte) (th chapter : Nat)
  | setWheel (p : Port) (tag : Byte) (e0 e1 e2 e3 : Nat)
  | setLanes (p : Port) (tag : Byte) (lanes : Byte)
  | setHoldLimit (p : Port) (tag : Byte) (seconds : Int)
  | openRead (p : Port) (tag : Byte) (th chapter rendition : Nat)
  | readRange (p : Port) (tag : Byte) (th slot generation offset length : Nat)
  | closeRead (p : Port) (tag : Byte) (th slot generation : Nat)
  | titleInfo (p : Port) (tag : Byte) (th : Nat)
  | chapterInfo (p : Port) (tag : Byte) (th chapter : Nat)
  | takeInfo (p : Port) (tag : Byte) (th take first : Nat)
  | laneInfo (p : Port) (tag : Byte)
  | popNotice (p : Port) (tag : Byte) (list : Nat)
  | setNoticeMask (p : Port) (tag : Byte) (lists : Byte)
  | deviceStatus (p : Port) (tag : Byte)
  | portReset (p : Port) (tag : Byte)
  /-- R56: the block program of port `p` completes. -/
  | programCompletion (p : Port)
  /-- R57: the block program of port `p` fails. -/
  | programFault (p : Port)
  | eraseStart
  | eraseCompletion
  | eraseFault
  /-- R160: the data fetch of port `p` completes. -/
  | fetchCompletion (p : Port)
  | dispatch
  /-- R85: the next slot of the wheel. `failRead` is the world's choice of R63: the position, among the lane reads made in this
  slot and counted from 0, of the read that reports an uncorrectable error; `none` when every read succeeds. -/
  | wheelSlot (failRead : Option Nat)
  | holdClockStep
  | holdExpiry
  /-- R191: the reset begins, by the RESET pin or by the start of power-on. -/
  | resetPinAsserted (cause : ResetCause)
  /-- R190: release of PRST. -/
  | portResetLineRelease (p : Port)
  /-- R183: the fall of SSEL. -/
  | transactionBegin (p : Port)
  deriving DecidableEq, Repr

end Sys2Proof
end

