-- ==== Sys2Proof/Decode.lean ====
section
/-! DEFINITION. The command that a word spells by the bits of spec/opcode_table.json. The table gives no row any bits (every
row's "fields" is empty), so a word spells none. The bytes of a link frame (R187) are read in Machine/Operands.lean. -/

namespace Sys2Proof

/-- No row of the table gives bits: no word spells a command (assumption 2). -/
def decodeTableWord (_nbits _w : Nat) : Option Instr := none

end Sys2Proof
end

