-- ==== Sys2Proof/Config.lean ====
section
/-! DEFINITION. What the spec leaves open, as free values: the payload bytes of the Rendition Coder (00_scope.md, R142) with the
one input record they depend on, and what the link shows of a transaction that a reset cuts off (R190, R191). -/

namespace Sys2Proof.Config

/-- What the payloads of later frames may depend on, for one frame an encoder took (R142): the gained samples of the frame,
whether its class is VOICED, and its grant. -/
structure FrameInput where
  samples : List Int
  voiced  : Bool
  grant   : Nat
  deriving DecidableEq, Repr

/-- FREE VALUE (assumption 1). Byte `i` of the payload that an encoder of profile `p` writes for the last frame of `frames`,
which are the frames 0 to n of one pass at that rendition (R142). The spec does not say how the coder spends these bytes. It
has no body: nothing can be proved of its value except that equal inputs give equal bytes, which is what R142 says. -/
opaque payloadByte (p : Profile) (frames : List FrameInput) (i : Nat) : Byte

/-- FREE VALUE (assumption 7). How many bytes of a transaction at port `p` had been clocked when its port reset line (R190) or a
device reset (R191) cut it off, or between two such cuts; `n` numbers what is taken of free values at the port
(`PortRecord.cuts`). No command says how many. -/
opaque clockedBefore (p : Port) (n : Nat) : Nat

/-- FREE VALUE (assumption 7). Byte `i` of those that port `p` sends in a transaction after a device reset cut it off, or in one that
began while a device reset was held (R191, which says nothing of these bytes); `n` as for `clockedBefore`. -/
opaque lostByte (p : Port) (n i : Nat) : Byte

end Sys2Proof.Config
end

