-- ==== Sys2Proof/Machine/State.lean ====
section
/-! DEFINITION. Everything the spec gives the part to hold, as plain data, block by block as the Block Overview of 00_scope.md
lists them; the reasons a step can stop; and the part right after a device reset. -/

namespace Sys2Proof.Machine

/-! ### Containers -/

/-- Records by number, the numbers strictly rising. A number that is not listed has no record. -/
abbrev Tab (α : Type) := List (Nat × α)

/-- A memory of bytes in canonical form: addresses strictly rising, and no byte listed that an unlisted address reads as
(0, assumption 3). -/
abbrev Memory := List Host.Cell

/-- Four like things, numbered 0 to 3: the lanes, or the slots of a wheel pattern. -/
structure Four (α : Type) where
  e0 : α
  e1 : α
  e2 : α
  e3 : α
  deriving DecidableEq, Repr

/-! ### Titles (01_titles.md) -/

/-- The states of a title that is not FREE (R1). A FREE title has no record. -/
inductive TitleState where
  | opened | held | final
  deriving DecidableEq, Repr

/-- A room-tone span (R9). -/
structure RoomSpan where
  take   : Nat
  start  : Nat
  length : Nat
  deriving DecidableEq, Repr

/-- A title record that is not FREE (R1). Its handle is its number in the Title Table. -/
structure Title where
  state     : TitleState
  catalogue : Nat
  loudness  : Loudness
  roomTone  : Option RoomSpan
  profiles  : List Profile
  deriving DecidableEq, Repr

/-! ### Chapters (02_chapters_and_splice_lists.md) -/

/-- A chapter by title handle and chapter index. -/
structure ChapterId where
  title : Nat
  index : Nat
  deriving DecidableEq, Repr

/-- The chapter states of R19. -/
inductive ChapterState where
  | draft | queued | measuring | encoding | commitWait | done | failed
  deriving DecidableEq, Repr

/-- The two render FIFOs, and the priority that names one (R19, R76). -/
inductive Priority where
  | normal | rush
  deriving DecidableEq, Repr

/-- A chapter record (R19). Its title handle and index are its number in the Chapter Table. -/
structure Chapter where
  state     : ChapterState
  segments  : List Segment
  headPad   : Nat
  tailPad   : Nat
  priority  : Priority
  published : Bool
  serial    : Nat
  stale     : Bool
  deriving DecidableEq, Repr

/-! ### Take memory (03_take_memory.md) -/

/-- Where a group is (R41). -/
inductive GroupState where
  | clean | dirty | erasing | owned | bad
  deriving DecidableEq, Repr

/-- A record of the group map (R41). -/
structure Group where
  state   : GroupState
  owner   : Option Nat
  index   : Option Nat
  refs    : Nat
  faulted : Bool
  deriving DecidableEq, Repr

/-- The states of a take (R49). -/
inductive TakeState where
  | recording | closed | faulted
  deriving DecidableEq, Repr

/-- A take record (R49). An entry of the group list is a group number, or `none` for a hole. -/
structure Take where
  title    : Nat
  state    : TakeState
  blocks   : Nat
  tail     : Option Nat
  groups   : List (Option Nat)
  inFlight : Option Nat
  deriving DecidableEq, Repr

/-- The Take Memory Controller: the group map, where free groups wait, the take table (by take id), the scrub indication of
R48, and the stored bytes. Block position `q` of group `g` holds its 3,072 link bytes at addresses `(g * 256 + q) * 3072` and up. -/
structure TakeMemory where
  groups : List Group
  clean  : List Nat
  dirty  : List Nat
  engine : Option Nat
  bad    : List Nat
  takes  : Tab Take
  scrub  : Bool
  mem    : Memory
  deriving DecidableEq, Repr

/-! ### Render queue, lanes and wheel (05 to 08) -/

/-- The Render Queue: the two FIFOs, heads first, and the count of R77. -/
structure RenderQueue where
  rush   : List ChapterId
  normal : List ChapterId
  count  : Nat
  deriving DecidableEq, Repr

/-- What a lane copies of the title at dispatch (R82, step 2). -/
structure Params where
  loudness : Loudness
  profiles : List Profile
  roomTone : Option RoomSpan
  deriving DecidableEq, Repr

/-- What a lane copies of the chapter at dispatch (R82, step 3). Its length and block count are computed from it. -/
structure Timeline where
  headPad  : Nat
  segments : List Segment
  tailPad  : Nat
  deriving DecidableEq, Repr

/-- One take block with its 1,024 stored samples (R97). -/
structure HeldBlock where
  take    : Nat
  block   : Nat
  samples : List Int
  deriving DecidableEq, Repr

/-- The Assembly Unit of a lane in MEASURE or ENCODE: the timeline cursor and the held take block (R97). -/
structure Assembly where
  cursor : Nat
  held   : Option HeldBlock
  deriving DecidableEq, Repr

/-- One histogram bin (R112). -/
structure Bin where
  count : Nat
  sum   : Nat
  deriving DecidableEq, Repr

/-- The Loudness Unit (R112): peak, open quad, and the 901 bins, the bin of level `n` at place `n + 900`. -/
structure Meter where
  peak      : Nat
  quadSum   : Nat
  quadCount : Nat
  bins      : List Bin
  deriving DecidableEq, Repr

/-- The gain record (R124). -/
structure GainRecord where
  lint        : Int
  lp          : Int
  g           : Int
  lout        : Int
  q           : Nat
  silent      : Bool
  gainClamped : Bool
  peakLimited : Bool
  underTarget : Bool
  deriving DecidableEq, Repr

/-- An encoder record (R130). `frames` and `starvedFrames` are counts; `inputs` is the MODEL's own field: what the payload
bytes of later frames depend on (R142, assumption 1). -/
structure Encoder where
  rendition     : Nat
  profile       : Profile
  credit        : Nat
  starved       : Bool
  frames        : Nat
  starvedFrames : Nat
  byteCount     : Nat
  crc           : BitVec 32
  pages         : List Nat
  lastCrossing  : Option Nat
  inputs        : List Config.FrameInput
  deriving DecidableEq, Repr

/-- The states of a lane (R83). -/
inductive LaneState where
  | idle | measure | encode | commitWait
  deriving DecidableEq, Repr

/-- What a lane holds by its pass. Each field is present exactly in the states in which R83, R97, R112 and R124 give it. -/
inductive Stage where
  | measure (assembly : Assembly) (meter : Meter)
  | encode (assembly : Assembly) (gain : GainRecord) (saturated : Nat) (encoders : List Encoder)
  | commitWait (gain : GainRecord) (saturated : Nat) (encoders : List Encoder)
  deriving DecidableEq, Repr

/-- The fields of a lane record that are absent while the lane is IDLE (R83). -/
structure Render where
  chapter  : ChapterId
  origin   : Priority
  params   : Params
  timeline : Timeline
  pass     : Nat
  stage    : Stage
  deriving DecidableEq, Repr

/-- How a render ended (R93). -/
inductive EndWay where
  | committed | failed | cancelled | aborted | deleted
  deriving DecidableEq, Repr

/-- The causes of a failure (R92). -/
inductive FailCause where
  | takeFault | noSpace
  deriving DecidableEq, Repr

/-- The last end of a lane (R93). -/
structure LastEnd where
  chapter   : ChapterId
  way       : EndWay
  laneState : LaneState
  cause     : Option FailCause
  group     : Option Nat
  position  : Option Nat
  serial    : Option Nat
  deriving DecidableEq, Repr

/-- A lane record (R83). The lane is IDLE exactly when `render` is absent. -/
structure Lane where
  enabled : Bool
  render  : Option Render
  lastEnd : Option LastEnd
  deriving DecidableEq, Repr

/-- A wheel pattern: four entries, each a lane or NONE (R85). -/
abbrev Pattern := Four (Option (Fin 4))

/-- The Slot Wheel: the pattern in force, the pending pattern, and the slot that comes next (R85). -/
structure Wheel where
  pattern : Pattern
  pending : Option Pattern
  slot    : Fin 4
  deriving DecidableEq, Repr

/-! ### Rendition memory and holds (09) -/

/-- An image of a published set (R151). -/
structure Image where
  rendition : Nat
  pages     : List Nat
  byteCount : Nat
  deriving DecidableEq, Repr

/-- A published set (R151), its images in ascending rendition index. -/
structure PublishedSet where
  serial : Nat
  images : List Image
  deriving DecidableEq, Repr

/-- Rendition Memory: the page pool, head first (R150), the published sets by chapter, and the page bytes. Byte `o` of page
`g` is at address `g * 4096 + o`. -/
structure RenditionMemory where
  pool : List Nat
  sets : Tab PublishedSet
  mem  : Memory
  deriving DecidableEq, Repr

/-- A hold record (R154). `remaining` counts steps of 10 ms; `read` is the offset and actual length of the read in flight. -/
structure Hold where
  owner     : Port
  chapter   : ChapterId
  rendition : Nat
  serial    : Nat
  remaining : Nat
  read      : Option (Nat × Nat)
  deriving DecidableEq, Repr

/-- The Hold Table (R154, R155): the generations of slots 1 to 16 in order, the holds by slot, and the hold limit in seconds. -/
structure HoldTable where
  gens  : List Nat
  holds : Tab Hold
  limit : Nat
  deriving DecidableEq, Repr

/-! ### Notice lists (10) -/

/-- An entry of a DONE list (R169). -/
structure DoneEntry where
  chapter : ChapterId
  serial  : Nat
  deriving DecidableEq, Repr

/-- An entry of a FAILED list (R169). -/
structure FailedEntry where
  chapter : ChapterId
  cause   : FailCause
  deriving DecidableEq, Repr

/-- An entry of a STARVED list (R169). -/
structure StarvedEntry where
  chapter   : ChapterId
  rendition : Nat
  frame     : Nat
  deriving DecidableEq, Repr

/-- An entry of a RESTORED list (R169). -/
structure RestoredEntry where
  chapter   : ChapterId
  rendition : Nat
  frame     : Nat
  ended     : Bool
  deriving DecidableEq, Repr

/-- An entry of a HOLD_EXPIRED list (R169). -/
structure ExpiredEntry where
  slot       : Nat
  generation : Nat
  chapter    : ChapterId
  rendition  : Nat
  deriving DecidableEq, Repr

/-- The five notice lists of one port, heads first (R169). -/
structure NoticeLists where
  done     : List DoneEntry
  failed   : List FailedEntry
  starved  : List StarvedEntry
  restored : List RestoredEntry
  expired  : List ExpiredEntry
  deriving DecidableEq, Repr

/-- The notice mask of one port: which lists drive its ATTN line (R176). -/
structure NoticeMask where
  done     : Bool
  failed   : Bool
  starved  : Bool
  restored : Bool
  expired  : Bool
  deriving DecidableEq, Repr

/-! ### Link ports (11, and the discard sequence of 04) -/

/-- The roles of R180. -/
inductive Role where
  | ingest | edit | delivery | full
  deriving DecidableEq, Repr

/-- The port states of R182. -/
inductive PortState where
  | idle | executing | replyReady
  deriving DecidableEq, Repr

/-- The statuses of a reply (R187). -/
inductive Status where
  | ok | class_ | malformed | badHandle | badState | range | full | notReady | locked | busy | crcError | seqMismatch
  | sequence | tooLate | programFault
  deriving DecidableEq, Repr

/-- The flags of a reply (R188). -/
structure ReplyFlags where
  discardReset : Bool := false
  stale        : Bool := false
  clamped      : Bool := false
  skipped      : Bool := false
  existing     : Bool := false
  freed        : Bool := false
  empty        : Bool := false
  deriving DecidableEq, Repr

/-- A reply frame (R187): its status, tag and flags, and the bytes of its results. -/
structure Reply where
  status  : Status
  tag     : Byte
  flags   : ReplyFlags
  results : List Byte
  deriving DecidableEq, Repr

/-- What takes time in a port (R186): a block program with its data, or the data fetch through a hold slot, with the stale
flag as it stood when the READ-RANGE was taken (R160). -/
inductive Work where
  | program (take block : Nat) (data : List Byte)
  | fetch (slot : Nat) (stale : Bool)
  deriving DecidableEq, Repr

/-- The operation in flight of a port, with what its reply will carry: the tag of its frame, and DISCARD_RESET if taking the
request gave up a discard sequence (R73). -/
structure Operation where
  tag          : Byte
  discardReset : Bool
  work         : Work
  deriving DecidableEq, Repr

/-- The discard sequence of a port with its marks (R66). -/
inductive DiscardSeq where
  | none
  | firstSet (take first : Nat)
  | bothSet (take first last : Nat)
  deriving DecidableEq, Repr

/-- The transaction in progress on a link, by what its beginning decided (R183, R184, R190): the state of the port then; or
`muted`, begun under an asserted PRST; or `abandoned` by an assertion of PRST, with the bytes it had sent ahead of the zeros; or
`lost`, which a device reset abandoned, with the bytes it had sent, or found beginning, with none (R191). -/
inductive Span where
  | idle | executing | replyReady | muted
  | abandoned (sent : List Byte)
  | lost (sent : List Byte)
  deriving DecidableEq, Repr

/-- All that one link port holds: the port record of R182, its discard sequence, notice lists and mask, its ATTN output, the
level of its PRST input, the transaction in progress, and the whole bytes it sent in the last transaction that ended. `cuts` is
the MODEL's own field: how many times free values of what the port sends have been taken (assumption 7). -/
structure PortRecord where
  role        : Role
  state       : PortState
  reply       : Option Reply
  operation   : Option Operation
  discardMark : Bool
  sequence    : DiscardSeq
  mask        : NoticeMask
  lists       : NoticeLists
  attn        : Bool
  resetLine   : Bool
  span        : Option Span
  sent        : List Byte
  cuts        : Nat
  deriving DecidableEq, Repr

/-- The three ports. -/
structure Ports where
  a : PortRecord
  b : PortRecord
  c : PortRecord
  deriving DecidableEq, Repr

/-! ### The part -/

/-- The whole part. `titles` is by title handle, `chapters` by `ChapterId.key`; `cause` is the reset cause of R191 and
`resetHeld` says that a device reset is in progress, and from what. `pending` is the queue of commands that wait. -/
structure State where
  titles    : Tab Title
  chapters  : Tab Chapter
  takeMem   : TakeMemory
  queue     : RenderQueue
  lanes     : Four Lane
  wheel     : Wheel
  rendMem   : RenditionMemory
  holdTable : HoldTable
  ports     : Ports
  cause     : ResetCause
  resetHeld : Option ResetCause
  pending   : List Instr
  deriving DecidableEq, Repr

/-- Why a command can stop the machine. -/
inductive Fault where
  /-- Raised by `wheelSlot` alone, when a lane asks for a take block that lies in no owned group. 03_take_memory.md (Lane reads)
  says that every block a lane asks for lies in an owned group, so no such address exists to read; the spec gives no effect.
  Safe: the machine stops where the spec has nothing happen. -/
  | strayLaneRead
  deriving DecidableEq, Repr

/-- Why a command has no meaning. -/
inductive Refusal where
  /-- Raised by an arm of `exec` for a command that has no meaning yet. Safe. No arm raises it. -/
  | notModelled (mnemonic : String)
  deriving DecidableEq, Repr

/-! ### After a device reset -/

/-- A group after device reset (R41). -/
def Group.atReset : Group := { state := .dirty, owner := none, index := none, refs := 0, faulted := false }

/-- Take memory after device reset (R47, R48). -/
def TakeMemory.atReset : TakeMemory :=
  { groups := List.replicate 32768 Group.atReset, clean := [], dirty := List.range' 0 32768, engine := none, bad := [],
    takes := [], scrub := true, mem := [] }

/-- A lane after device reset (R83): only the enabled flag of lane 0 is set. -/
def Lane.atReset (enabled : Bool) : Lane := { enabled := enabled, render := none, lastEnd := none }

/-- The wheel after device reset (R85). -/
def Wheel.atReset : Wheel :=
  { pattern := { e0 := some 0, e1 := some 0, e2 := some 0, e3 := some 0 }, pending := none, slot := 0 }

/-- Rendition memory after device reset (R150, R151). -/
def RenditionMemory.atReset : RenditionMemory := { pool := List.range' 0 1048576, sets := [], mem := [] }

/-- The Hold Table after device reset (R154, R155). -/
def HoldTable.atReset : HoldTable := { gens := List.replicate 16 0, holds := [], limit := 10 }

/-- Five empty notice lists. -/
def NoticeLists.empty : NoticeLists := { done := [], failed := [], starved := [], restored := [], expired := [] }

/-- The empty notice mask. -/
def NoticeMask.empty : NoticeMask :=
  { done := false, failed := false, starved := false, restored := false, expired := false }

/-- A port of the given role after device reset (R66, R169, R176, R182). -/
def PortRecord.atReset (role : Role) : PortRecord :=
  { role := role, state := .idle, reply := none, operation := none, discardMark := false, sequence := .none,
    mask := NoticeMask.empty, lists := NoticeLists.empty, attn := false, resetLine := false, span := none, sent := [],
    cuts := 0 }

/-- The part right after a power-on whose straps give every port the role FULL (assumption 4: the straps are inputs). Every
other field is at the value the spec states for device reset. -/
def State.reset : State :=
  { titles := [], chapters := [], takeMem := TakeMemory.atReset, queue := { rush := [], normal := [], count := 0 },
    lanes := { e0 := Lane.atReset true, e1 := Lane.atReset false, e2 := Lane.atReset false, e3 := Lane.atReset false },
    wheel := Wheel.atReset, rendMem := RenditionMemory.atReset, holdTable := HoldTable.atReset,
    ports := { a := PortRecord.atReset .full, b := PortRecord.atReset .full, c := PortRecord.atReset .full },
    cause := .powerOn, resetHeld := none, pending := [] }

end Sys2Proof.Machine
end

