-- ==== Sys2Proof/Machine/Operands.lean ====
section
/-! DEFINITION. Byte order, and the request frame: its header, the codes and the operands of every request (R187), the reading
of a frame by the port (R184, R185) and the checksum of a block (R53). -/

namespace Sys2Proof.Machine

/-! ### Byte order -/

/-- The `k` bytes of a whole number, least significant first (R187). -/
def le : Nat → Nat → List Byte
  | 0, _ => []
  | k + 1, n => BitVec.ofNat 8 n :: le k (n / 256)

/-- The whole number that bytes spell, least significant first. -/
def unle : List Byte → Nat
  | [] => 0
  | b :: bs => b.toNat + 256 * unle bs

/-- A signed 16-bit two's complement number (R187). -/
def leI (x : Int) : List Byte := le 2 (BitVec.ofInt 16 x).toNat

/-- The field of `n` bytes at offset `k`. -/
def fieldAt (bs : List Byte) (k n : Nat) : Nat := unle ((bs.drop k).take n)

/-- The signed 16-bit field at offset `k`. -/
def fieldI (bs : List Byte) (k : Nat) : Int := (BitVec.ofNat 16 (fieldAt bs k 2)).toInt

/-- The sample that three stored bytes spell: 24-bit two's complement, least significant byte first (R52). -/
def sampleOf (b0 b1 b2 : Byte) : Int := (BitVec.ofNat 24 (unle [b0, b1, b2])).toInt

/-! ### Classes and codes -/

/-- The request classes (R181). -/
inductive RequestClass where
  | take | plan | render | read | query
  deriving DecidableEq, Repr

/-- The class byte (R187). -/
def RequestClass.byte : RequestClass → Nat
  | .take => 1
  | .plan => 2
  | .render => 3
  | .read => 4
  | .query => 5

/-- R180: the classes that a role accepts. -/
def Role.accepts : Role → RequestClass → Bool
  | .full, _ => true
  | _, .query => true
  | .ingest, .take => true
  | .edit, .plan => true
  | .edit, .render => true
  | .edit, .read => true
  | .delivery, .read => true
  | _, _ => false

/-- The class of a request (R187, Request codes). -/
def requestClass : Request → RequestClass
  | .openTake _ => .take
  | .writeBlock _ _ _ _ _ => .take
  | .closeTake _ _ _ => .take
  | .discardFirst _ _ _ => .take
  | .discardLast _ _ _ => .take
  | .discardCommit _ => .take
  | .registerTitle _ => .plan
  | .setTitleParams _ _ _ => .plan
  | .setProfile _ _ _ => .plan
  | .setProfileCount _ _ => .plan
  | .setRoomTone _ _ _ _ => .plan
  | .clearRoomTone _ => .plan
  | .holdTitle _ => .plan
  | .releaseTitle _ => .plan
  | .finalizeTitle _ => .plan
  | .retireTitle _ => .plan
  | .defineChapter _ _ => .plan
  | .deleteChapter _ _ => .plan
  | .setChapterPads _ _ _ _ => .plan
  | .insertSegment _ _ _ _ => .plan
  | .replaceSegment _ _ _ _ => .plan
  | .removeSegment _ _ _ => .plan
  | .queueRender _ _ _ => .render
  | .cancelRender _ _ => .render
  | .setWheel _ _ _ _ => .render
  | .setLanes _ => .render
  | .setHoldLimit _ => .render
  | .openRead _ _ _ => .read
  | .readRange _ _ _ _ _ => .read
  | .closeRead _ _ _ => .read
  | .titleInfo _ => .query
  | .chapterInfo _ _ => .query
  | .takeInfo _ _ _ => .query
  | .laneInfo => .query
  | .popNotice _ => .query
  | .setNoticeMask _ => .query
  | .deviceStatus => .query
  | .portReset => .query

/-- The code of a request within its class (R187, Request codes). -/
def requestCode : Request → Nat
  | .openTake _ => 1
  | .writeBlock _ _ _ _ _ => 2
  | .closeTake _ _ _ => 3
  | .discardFirst _ _ _ => 4
  | .discardLast _ _ _ => 5
  | .discardCommit _ => 6
  | .registerTitle _ => 1
  | .setTitleParams _ _ _ => 2
  | .setProfile _ _ _ => 3
  | .setProfileCount _ _ => 4
  | .setRoomTone _ _ _ _ => 5
  | .clearRoomTone _ => 6
  | .holdTitle _ => 7
  | .releaseTitle _ => 8
  | .finalizeTitle _ => 9
  | .retireTitle _ => 10
  | .defineChapter _ _ => 11
  | .deleteChapter _ _ => 12
  | .setChapterPads _ _ _ _ => 13
  | .insertSegment _ _ _ _ => 14
  | .replaceSegment _ _ _ _ => 15
  | .removeSegment _ _ _ => 16
  | .queueRender _ _ _ => 1
  | .cancelRender _ _ => 2
  | .setWheel _ _ _ _ => 3
  | .setLanes _ => 4
  | .setHoldLimit _ => 5
  | .openRead _ _ _ => 1
  | .readRange _ _ _ _ _ => 2
  | .closeRead _ _ _ => 3
  | .titleInfo _ => 1
  | .chapterInfo _ _ => 2
  | .takeInfo _ _ _ => 3
  | .laneInfo => 4
  | .popNotice _ => 5
  | .setNoticeMask _ => 6
  | .deviceStatus => 7
  | .portReset => 8

/-- The title handle byte of the header; 0 for a request that does not use it (R185). -/
def titleByte : Request → Nat
  | .openTake th => th
  | .writeBlock th _ _ _ _ => th
  | .closeTake th _ _ => th
  | .discardFirst th _ _ => th
  | .discardLast th _ _ => th
  | .discardCommit th => th
  | .registerTitle _ => 0
  | .setTitleParams th _ _ => th
  | .setProfile th _ _ => th
  | .setProfileCount th _ => th
  | .setRoomTone th _ _ _ => th
  | .clearRoomTone th => th
  | .holdTitle th => th
  | .releaseTitle th => th
  | .finalizeTitle th => th
  | .retireTitle th => th
  | .defineChapter th _ => th
  | .deleteChapter th _ => th
  | .setChapterPads th _ _ _ => th
  | .insertSegment th _ _ _ => th
  | .replaceSegment th _ _ _ => th
  | .removeSegment th _ _ => th
  | .queueRender th _ _ => th
  | .cancelRender th _ => th
  | .setWheel _ _ _ _ => 0
  | .setLanes _ => 0
  | .setHoldLimit _ => 0
  | .openRead th _ _ => th
  | .readRange th _ _ _ _ => th
  | .closeRead th _ _ => th
  | .titleInfo th => th
  | .chapterInfo th _ => th
  | .takeInfo th _ _ => th
  | .laneInfo => 0
  | .popNotice _ => 0
  | .setNoticeMask _ => 0
  | .deviceStatus => 0
  | .portReset => 0

/-- The operand length that the operands of a request make (R187). Only the data of a WRITE-BLOCK could make another one. -/
def operandLength : Request → Nat
  | .openTake _ => 0
  | .writeBlock _ _ _ data _ => 8 + data.length
  | .closeTake _ _ _ => 4
  | .discardFirst _ _ _ => 4
  | .discardLast _ _ _ => 4
  | .discardCommit _ => 0
  | .registerTitle _ => 8
  | .setTitleParams _ _ _ => 11
  | .setProfile _ _ _ => 12
  | .setProfileCount _ _ => 1
  | .setRoomTone _ _ _ _ => 10
  | .clearRoomTone _ => 0
  | .holdTitle _ => 0
  | .releaseTitle _ => 0
  | .finalizeTitle _ => 0
  | .retireTitle _ => 0
  | .defineChapter _ _ => 1
  | .deleteChapter _ _ => 1
  | .setChapterPads _ _ _ _ => 9
  | .insertSegment _ _ _ _ => 20
  | .replaceSegment _ _ _ _ => 20
  | .removeSegment _ _ _ => 2
  | .queueRender _ _ _ => 2
  | .cancelRender _ _ => 1
  | .setWheel _ _ _ _ => 4
  | .setLanes _ => 1
  | .setHoldLimit _ => 2
  | .openRead _ _ _ => 2
  | .readRange _ _ _ _ _ => 8
  | .closeRead _ _ _ => 2
  | .titleInfo _ => 0
  | .chapterInfo _ _ => 1
  | .takeInfo _ _ _ => 4
  | .laneInfo => 0
  | .popNotice _ => 1
  | .setNoticeMask _ => 1
  | .deviceStatus => 0
  | .portReset => 0

/-- The 18 bytes of a segment (R21, R187). -/
def segmentBytes (g : Segment) : List Byte :=
  le 2 g.take ++ (le 4 g.start ++ (le 4 g.length ++ (le 2 g.fadeIn ++ (le 2 g.fadeOut ++ le 4 g.gap))))

/-- The segment that 18 bytes from offset `k` spell. -/
def segmentAt (bs : List Byte) (k : Nat) : Segment :=
  { take := fieldAt bs k 2, start := fieldAt bs (k + 2) 4, length := fieldAt bs (k + 6) 4, fadeIn := fieldAt bs (k + 10) 2,
    fadeOut := fieldAt bs (k + 12) 2, gap := fieldAt bs (k + 14) 4 }

/-- The 11 bytes of a profile (R7, R187). -/
def profileBytes (p : Profile) : List Byte :=
  le 1 p.bmin ++ (le 2 p.bsus ++ (le 2 p.bpeak ++ (le 2 p.cmax ++ (le 2 p.ts ++ le 2 p.d))))

/-- The profile that 11 bytes from offset `k` spell. -/
def profileAt (bs : List Byte) (k : Nat) : Profile :=
  { bmin := fieldAt bs k 1, bsus := fieldAt bs (k + 1) 2, bpeak := fieldAt bs (k + 3) 2, cmax := fieldAt bs (k + 5) 2,
    ts := fieldAt bs (k + 7) 2, d := fieldAt bs (k + 9) 2 }

/-- The ten bytes of the five loudness values (R187). -/
def loudnessBytes (l : Loudness) : List Byte :=
  leI l.target ++ (leI l.tolerance ++ (leI l.ceiling ++ (leI l.absGate ++ leI l.silence)))

/-- The five loudness values that ten bytes from offset `k` spell. -/
def loudnessAt (bs : List Byte) (k : Nat) : Loudness :=
  { target := fieldI bs k, tolerance := fieldI bs (k + 2), ceiling := fieldI bs (k + 4), absGate := fieldI bs (k + 6),
    silence := fieldI bs (k + 8) }

/-- The operands of a request, in the order its rule gives them (R187). -/
def operandBytes : Request → List Byte
  | .openTake _ => []
  | .writeBlock _ take block data crc => le 2 take ++ (le 4 block ++ (data ++ le 2 crc.toNat))
  | .closeTake _ take tail => le 2 take ++ le 2 tail
  | .discardFirst _ take index => le 2 take ++ le 2 index
  | .discardLast _ take index => le 2 take ++ le 2 index
  | .discardCommit _ => []
  | .registerTitle catalogue => le 8 catalogue
  | .setTitleParams _ mask values => [mask] ++ loudnessBytes values
  | .setProfile _ index profile => le 1 index ++ profileBytes profile
  | .setProfileCount _ count => le 1 count
  | .setRoomTone _ take start length => le 2 take ++ (le 4 start ++ le 4 length)
  | .clearRoomTone _ => []
  | .holdTitle _ => []
  | .releaseTitle _ => []
  | .finalizeTitle _ => []
  | .retireTitle _ => []
  | .defineChapter _ chapter => le 1 chapter
  | .deleteChapter _ chapter => le 1 chapter
  | .setChapterPads _ chapter head tail => le 1 chapter ++ (le 4 head ++ le 4 tail)
  | .insertSegment _ chapter position segment => le 1 chapter ++ (le 1 position ++ segmentBytes segment)
  | .replaceSegment _ chapter position segment => le 1 chapter ++ (le 1 position ++ segmentBytes segment)
  | .removeSegment _ chapter position => le 1 chapter ++ le 1 position
  | .queueRender _ chapter priority => le 1 chapter ++ le 1 priority
  | .cancelRender _ chapter => le 1 chapter
  | .setWheel e0 e1 e2 e3 => le 1 e0 ++ (le 1 e1 ++ (le 1 e2 ++ le 1 e3))
  | .setLanes lanes => [lanes]
  | .setHoldLimit seconds => leI seconds
  | .openRead _ chapter rendition => le 1 chapter ++ le 1 rendition
  | .readRange _ slot generation offset length => le 1 slot ++ (le 1 generation ++ (le 4 offset ++ le 2 length))
  | .closeRead _ slot generation => le 1 slot ++ le 1 generation
  | .titleInfo _ => []
  | .chapterInfo _ chapter => le 1 chapter
  | .takeInfo _ take first => le 2 take ++ le 2 first
  | .laneInfo => []
  | .popNotice list => le 1 list
  | .setNoticeMask lists => [lists]
  | .deviceStatus => []
  | .portReset => []

/-- The request frame: the 6-byte header and the operands (R187). -/
def requestFrame (tag : Byte) (r : Request) : List Byte :=
  BitVec.ofNat 8 (requestClass r).byte :: BitVec.ofNat 8 (requestCode r) :: tag :: BitVec.ofNat 8 (titleByte r) ::
    (le 2 (operandLength r) ++ operandBytes r)

/-! ### Reading a frame -/

/-- The request of class TAKE that a code and its operands name; `none` for no code of the class or another operand length (R185). -/
def readTake (code th : Nat) (bs : List Byte) : Option Request :=
  match code with
  | 1 => if bs.length = 0 then some (.openTake th) else none
  | 2 => if bs.length = 3080 then some (.writeBlock th (fieldAt bs 0 2) (fieldAt bs 2 4) ((bs.drop 6).take 3072) (BitVec.ofNat 16 (fieldAt bs 3078 2))) else none
  | 3 => if bs.length = 4 then some (.closeTake th (fieldAt bs 0 2) (fieldAt bs 2 2)) else none
  | 4 => if bs.length = 4 then some (.discardFirst th (fieldAt bs 0 2) (fieldAt bs 2 2)) else none
  | 5 => if bs.length = 4 then some (.discardLast th (fieldAt bs 0 2) (fieldAt bs 2 2)) else none
  | 6 => if bs.length = 0 then some (.discardCommit th) else none
  | _ => none

/-- The request of class PLAN that a code and its operands name; `none` for no code of the class or another operand length (R185). -/
def readPlan (code th : Nat) (bs : List Byte) : Option Request :=
  match code with
  | 1 => if bs.length = 8 then some (.registerTitle (fieldAt bs 0 8)) else none
  | 2 => if bs.length = 11 then some (.setTitleParams th (bs.getD 0 0) (loudnessAt bs 1)) else none
  | 3 => if bs.length = 12 then some (.setProfile th (fieldAt bs 0 1) (profileAt bs 1)) else none
  | 4 => if bs.length = 1 then some (.setProfileCount th (fieldAt bs 0 1)) else none
  | 5 => if bs.length = 10 then some (.setRoomTone th (fieldAt bs 0 2) (fieldAt bs 2 4) (fieldAt bs 6 4)) else none
  | 6 => if bs.length = 0 then some (.clearRoomTone th) else none
  | 7 => if bs.length = 0 then some (.holdTitle th) else none
  | 8 => if bs.length = 0 then some (.releaseTitle th) else none
  | 9 => if bs.length = 0 then some (.finalizeTitle th) else none
  | 10 => if bs.length = 0 then some (.retireTitle th) else none
  | 11 => if bs.length = 1 then some (.defineChapter th (fieldAt bs 0 1)) else none
  | 12 => if bs.length = 1 then some (.deleteChapter th (fieldAt bs 0 1)) else none
  | 13 => if bs.length = 9 then some (.setChapterPads th (fieldAt bs 0 1) (fieldAt bs 1 4) (fieldAt bs 5 4)) else none
  | 14 => if bs.length = 20 then some (.insertSegment th (fieldAt bs 0 1) (fieldAt bs 1 1) (segmentAt bs 2)) else none
  | 15 => if bs.length = 20 then some (.replaceSegment th (fieldAt bs 0 1) (fieldAt bs 1 1) (segmentAt bs 2)) else none
  | 16 => if bs.length = 2 then some (.removeSegment th (fieldAt bs 0 1) (fieldAt bs 1 1)) else none
  | _ => none

/-- The request of class RENDER that a code and its operands name; `none` for no code of the class or another operand length (R185). -/
def readRender (code th : Nat) (bs : List Byte) : Option Request :=
  match code with
  | 1 => if bs.length = 2 then some (.queueRender th (fieldAt bs 0 1) (fieldAt bs 1 1)) else none
  | 2 => if bs.length = 1 then some (.cancelRender th (fieldAt bs 0 1)) else none
  | 3 => if bs.length = 4 then some (.setWheel (fieldAt bs 0 1) (fieldAt bs 1 1) (fieldAt bs 2 1) (fieldAt bs 3 1)) else none
  | 4 => if bs.length = 1 then some (.setLanes (bs.getD 0 0)) else none
  | 5 => if bs.length = 2 then some (.setHoldLimit (fieldI bs 0)) else none
  | _ => none

/-- The request of class READ that a code and its operands name; `none` for no code of the class or another operand length (R185). -/
def readRead (code th : Nat) (bs : List Byte) : Option Request :=
  match code with
  | 1 => if bs.length = 2 then some (.openRead th (fieldAt bs 0 1) (fieldAt bs 1 1)) else none
  | 2 => if bs.length = 8 then some (.readRange th (fieldAt bs 0 1) (fieldAt bs 1 1) (fieldAt bs 2 4) (fieldAt bs 6 2)) else none
  | 3 => if bs.length = 2 then some (.closeRead th (fieldAt bs 0 1) (fieldAt bs 1 1)) else none
  | _ => none

/-- The request of class QUERY that a code and its operands name; `none` for no code of the class or another operand length (R185). -/
def readQuery (code th : Nat) (bs : List Byte) : Option Request :=
  match code with
  | 1 => if bs.length = 0 then some (.titleInfo th) else none
  | 2 => if bs.length = 1 then some (.chapterInfo th (fieldAt bs 0 1)) else none
  | 3 => if bs.length = 4 then some (.takeInfo th (fieldAt bs 0 2) (fieldAt bs 2 2)) else none
  | 4 => if bs.length = 0 then some (.laneInfo) else none
  | 5 => if bs.length = 1 then some (.popNotice (fieldAt bs 0 1)) else none
  | 6 => if bs.length = 1 then some (.setNoticeMask (bs.getD 0 0)) else none
  | 7 => if bs.length = 0 then some (.deviceStatus) else none
  | 8 => if bs.length = 0 then some (.portReset) else none
  | _ => none

/-- The request that a class byte, a code, a title handle byte and operands name, if there is one (R185, step 1). -/
def readRequest (cls code th : Nat) (bs : List Byte) : Option Request :=
  match cls with
  | 1 => readTake code th bs
  | 2 => readPlan code th bs
  | 3 => readRender code th bs
  | 4 => readRead code th bs
  | 5 => readQuery code th bs
  | _ => none

/-- What the bytes after the first of a transaction amount to (R184, R185). -/
inductive Received where
  | discarded
  | malformed (tag : Byte)
  | request (tag : Byte) (r : Request)
  deriving DecidableEq, Repr

/-- R184, R185 step 1: no byte, or fewer than the header and its operand length ask for, is no request; a frame of another
length, an operand length above 3,200, or one that names no request is MALFORMED. -/
def receive : List Byte → Received
  | cls :: code :: tag :: th :: l0 :: l1 :: bs =>
      if bs.length < unle [l0, l1] then .discarded
      else if 3200 < unle [l0, l1] ∨ unle [l0, l1] < bs.length then .malformed tag
      else
        match readRequest cls.toNat code.toNat th.toNat bs with
        | none => .malformed tag
        | some r => .request tag r
  | _ => .discarded

/-- R185 step 1 for a request given as a command: its operands fill the operand length the request has. -/
def formatOk : Request → Bool
  | .writeBlock _ _ _ data _ => decide (data.length = 3072)
  | _ => true

/-- DISCARD-FIRST, DISCARD-LAST and DISCARD-COMMIT (R72). -/
def isDiscard : Request → Bool
  | .discardFirst _ _ _ => true
  | .discardLast _ _ _ => true
  | .discardCommit _ => true
  | _ => false

/-- DISCARD-FIRST (R73). -/
def isDiscardFirst : Request → Bool
  | .discardFirst _ _ _ => true
  | _ => false

/-! ### The CRC-16 of a block -/

/-- One bit of the CRC-16 of R53, most significant bit first: x^16 + x^12 + x^5 + 1, no reflection. -/
def crc16Bit (c : BitVec 16) : BitVec 16 := if c.msb then (c <<< 1) ^^^ 0x1021#16 else c <<< 1

/-- One byte of the CRC-16. -/
def crc16Byte (c : BitVec 16) (b : Byte) : BitVec 16 :=
  Nat.repeat crc16Bit 8 (c ^^^ (b.zeroExtend 16 <<< 8))

/-- The CRC-16 of a block's data bytes (R53): the register starts at 0 and there is no final xor. -/
def crc16 (bs : List Byte) : BitVec 16 := bs.foldl crc16Byte 0#16

end Sys2Proof.Machine
end

