-- ==== Sys2Proof/Machine/Ops.lean ====
section
/-! DEFINITION. The named operations over the containers, the memories, the take memory, the page pool, the ports and the
records of the part. Every meaning reads and writes State through these. -/

namespace Sys2Proof.Machine

/-! ### Containers -/

/-- The thing numbered `i`. -/
def Four.get {α : Type} (f : Four α) (i : Fin 4) : α :=
  match i with
  | 0 => f.e0
  | 1 => f.e1
  | 2 => f.e2
  | 3 => f.e3

/-- The four things with the one numbered `i` replaced. -/
def Four.set {α : Type} (f : Four α) (i : Fin 4) (x : α) : Four α :=
  match i with
  | 0 => { f with e0 := x }
  | 1 => { f with e1 := x }
  | 2 => { f with e2 := x }
  | 3 => { f with e3 := x }

/-- The four things in order. -/
def Four.toList {α : Type} (f : Four α) : List α := [f.e0, f.e1, f.e2, f.e3]

/-- The four numbers 0 to 3 in order. -/
def fourIndexes : List (Fin 4) := [0, 1, 2, 3]

/-- The record numbered `k`. -/
def Tab.look {α : Type} : Tab α → Nat → Option α
  | [], _ => none
  | (j, v) :: t, k => if j = k then some v else Tab.look t k

/-- The table with record `k` set to `v`. -/
def Tab.put {α : Type} : Tab α → Nat → α → Tab α
  | [], k, v => [(k, v)]
  | (j, w) :: t, k, v =>
      if k < j then (k, v) :: (j, w) :: t
      else if j = k then (k, v) :: t
      else (j, w) :: Tab.put t k v

/-- The table without record `k`. -/
def Tab.drop {α : Type} (t : Tab α) (k : Nat) : Tab α := t.filter (fun e => decide (e.1 ≠ k))

/-- The table with `f` applied to record `k`, if there is one. -/
def Tab.change {α : Type} (t : Tab α) (k : Nat) (f : α → α) : Tab α :=
  match Tab.look t k with
  | none => t
  | some v => Tab.put t k (f v)

/-- The canonical form of a table: the numbers strictly rise. -/
def Tab.wf {α : Type} : Tab α → Bool
  | [] => true
  | [_] => true
  | (j, _) :: (k, w) :: t => decide (j < k) && Tab.wf ((k, w) :: t)

/-! ### Memories -/

/-- The byte at address `k`. An address that is not listed reads as 0 (assumption 3). -/
def Memory.read : Memory → Nat → Byte
  | [], _ => 0
  | (a, b) :: m, k => if a = k then b else Memory.read m k

/-- Store one byte, keeping the canonical form. -/
def Memory.write : Memory → Nat → Byte → Memory
  | [], k, v => if v = 0 then [] else [(k, v)]
  | (a, b) :: m, k, v =>
      if k < a then (if v = 0 then (a, b) :: m else (k, v) :: (a, b) :: m)
      else if a = k then (if v = 0 then m else (k, v) :: m)
      else (a, b) :: Memory.write m k v

/-- Store bytes at consecutive addresses from `k`. -/
def Memory.writeBytes (m : Memory) (k : Nat) : List Byte → Memory
  | [] => m
  | b :: bs => Memory.writeBytes (Memory.write m k b) (k + 1) bs

/-- The `n` bytes from address `k`. -/
def Memory.readBytes (m : Memory) (k n : Nat) : List Byte := (List.range n).map (fun i => Memory.read m (k + i))

/-- The memory with the `n` addresses from `k` no longer listed. -/
def Memory.clear (m : Memory) (k n : Nat) : Memory := m.filter (fun c => decide (¬ (k ≤ c.1 ∧ c.1 < k + n)))

/-- The canonical form of a memory: addresses strictly rise and no listed byte is 0. -/
def Memory.wf : Memory → Bool
  | [] => true
  | [(_, b)] => decide (b ≠ 0)
  | (a, b) :: (a', b') :: m => decide (b ≠ 0) && decide (a < a') && Memory.wf ((a', b') :: m)

/-! ### Take memory -/

/-- The record of group `g`. -/
def TakeMemory.group (m : TakeMemory) (g : Nat) : Group := m.groups.getD g Group.atReset

/-- Replace the record of group `g`. -/
def TakeMemory.setGroup (m : TakeMemory) (g : Nat) (r : Group) : TakeMemory := { m with groups := m.groups.set g r }

/-- R43: group `g`, the head of the clean pool, becomes OWNED by a take at an index of its list, with count 0 and mark clear. -/
def TakeMemory.drawTo (m : TakeMemory) (g take index : Nat) : TakeMemory :=
  { m.setGroup g { state := .owned, owner := some take, index := some index, refs := 0, faulted := false } with
    clean := m.clean.drop 1 }

/-- The bad set with `g` in it. The set has no order (R46); it is kept rising so that equal sets are equal data. -/
def insertBad (g : Nat) : List Nat → List Nat
  | [] => [g]
  | h :: t => if g < h then g :: h :: t else if h = g then h :: t else h :: insertBad g t

/-- R45: group `g` leaves its take. With the faulted mark it joins the bad set; otherwise the tail of the dirty list. -/
def TakeMemory.release (m : TakeMemory) (g : Nat) : TakeMemory :=
  if (m.group g).faulted then
    { m.setGroup g { m.group g with state := .bad, owner := none, index := none, faulted := false } with
      bad := insertBad g m.bad }
  else
    { m.setGroup g { m.group g with state := .dirty, owner := none, index := none } with dirty := m.dirty ++ [g] }

/-- R45 for several groups, in the order given. -/
def TakeMemory.releaseAll (m : TakeMemory) (gs : List Nat) : TakeMemory := gs.foldl TakeMemory.release m

/-- The group-list indexes a span of take samples touches (R9, R21, R64). -/
def touchedIndexes (start length : Nat) : List Nat :=
  List.range' (start / 262144) ((start + length - 1) / 262144 + 1 - start / 262144)

/-- The entry at an index of a take's group list: `none` past the end of the list, `some none` for a hole. -/
def TakeMemory.entry (m : TakeMemory) (take index : Nat) : Option (Option Nat) :=
  match Tab.look m.takes take with
  | none => none
  | some t => t.groups[index]?

/-- The owned groups a span of a take touches. -/
def TakeMemory.touched (m : TakeMemory) (take start length : Nat) : List Nat :=
  (touchedIndexes start length).filterMap (fun i => (m.entry take i).join)

/-- Every group-list entry the span touches is an owned group and not a hole (R9 step 3, R24 step 6). -/
def TakeMemory.spanOwned (m : TakeMemory) (take start length : Nat) : Bool :=
  (touchedIndexes start length).all (fun i => ((m.entry take i).join).isSome)

/-- Change the reference count of one group. -/
def TakeMemory.changeRefs (f : Nat → Nat) (m : TakeMemory) (g : Nat) : TakeMemory :=
  m.setGroup g { m.group g with refs := f (m.group g).refs }

/-- R65: raise the count of each group by one. -/
def TakeMemory.raise (m : TakeMemory) (gs : List Nat) : TakeMemory := gs.foldl (TakeMemory.changeRefs (· + 1)) m

/-- R65: lower the count of each group by one. -/
def TakeMemory.lower (m : TakeMemory) (gs : List Nat) : TakeMemory := gs.foldl (TakeMemory.changeRefs (· - 1)) m

/-- The groups a segment touches. -/
def TakeMemory.segmentGroups (m : TakeMemory) (g : Segment) : List Nat := m.touched g.take g.start g.length

/-- The groups a room-tone span touches; none for an absent span. -/
def TakeMemory.toneGroups (m : TakeMemory) : Option RoomSpan → List Nat
  | none => []
  | some r => m.touched r.take r.start r.length

/-- The sample length of a CLOSED or FAULTED take (R49); a RECORDING take has none. -/
def Take.sampleLength (t : Take) : Option Nat :=
  match t.state with
  | .recording => none
  | _ => some ((t.blocks - 1) * 1024 + t.tail.getD 0)

/-- The owned groups of a take, in list order. -/
def Take.owned (t : Take) : List Nat := t.groups.filterMap id

/-- The current group of a RECORDING take is its last entry (R49): whether `index` is it. -/
def Take.isCurrent (t : Take) (index : Nat) : Bool :=
  decide (t.state = .recording) && decide (index + 1 = t.groups.length)

/-- The address of the first byte of block position `q` of group `g`. -/
def blockAddress (g q : Nat) : Nat := (g * 256 + q) * 3072

/-- The group that holds a block of a take, if the entry is an owned group (R99). -/
def TakeMemory.blockGroup (m : TakeMemory) (take block : Nat) : Option Nat := (m.entry take (block / 256)).join

/-! ### Rendition memory -/

/-- Store image bytes from image offset `off` on, into the pages of a page list (R143). -/
def writeImage (m : Memory) (pages : List Nat) (off : Nat) : List Byte → Memory
  | [] => m
  | b :: bs =>
      writeImage
        (match pages[off / 4096]? with
          | none => m
          | some g => Memory.write m (g * 4096 + off % 4096) b)
        pages (off + 1) bs

/-- The byte at image offset `off` of a page list (R143). -/
def readImage (m : Memory) (pages : List Nat) (off : Nat) : Byte :=
  match pages[off / 4096]? with
  | none => 0
  | some g => Memory.read m (g * 4096 + off % 4096)

/-- The pages of a published set, in ascending rendition index and in page-list order. -/
def PublishedSet.pages (p : PublishedSet) : List Nat := p.images.flatMap (fun i => i.pages)

/-- The image of a set at a rendition index. -/
def PublishedSet.image? (p : PublishedSet) (rendition : Nat) : Option Image :=
  p.images.find? (fun i => decide (i.rendition = rendition))

/-- R150: pages join the pool at its tail, in the order given. -/
def RenditionMemory.free (m : RenditionMemory) (pages : List Nat) : RenditionMemory := { m with pool := m.pool ++ pages }

/-! ### Titles and chapters -/

/-- The number of a chapter in the Chapter Table. -/
def ChapterId.key (c : ChapterId) : Nat := c.title * 128 + c.index

/-- The chapter of a number of the Chapter Table. -/
def ChapterId.ofKey (k : Nat) : ChapterId := { title := k / 128, index := k % 128 }

/-- R2: the record a title handle resolves to. -/
def State.title? (s : State) (th : Nat) : Option Title := if 1 ≤ th ∧ th ≤ 4 then Tab.look s.titles th else none

/-- The record of a chapter. -/
def State.chapter? (s : State) (c : ChapterId) : Option Chapter := Tab.look s.chapters c.key

/-- R50: the record that a take id resolves to under a title handle. -/
def State.take? (s : State) (th take : Nat) : Option Take :=
  if 1 ≤ take ∧ take ≤ 1024 then
    match Tab.look s.takeMem.takes take with
    | none => none
    | some t => if t.title = th then some t else none
  else none

/-- Store a title record. -/
def State.setTitle (s : State) (th : Nat) (t : Title) : State := { s with titles := Tab.put s.titles th t }

/-- Store a chapter record. -/
def State.setChapter (s : State) (c : ChapterId) (r : Chapter) : State := { s with chapters := Tab.put s.chapters c.key r }

/-- Change a chapter record, if there is one. -/
def State.changeChapter (s : State) (c : ChapterId) (f : Chapter → Chapter) : State :=
  { s with chapters := Tab.change s.chapters c.key f }

/-- Replace the take memory. -/
def State.setTakeMem (s : State) (m : TakeMemory) : State := { s with takeMem := m }

/-- Store a take record. -/
def TakeMemory.setTake (m : TakeMemory) (id : Nat) (t : Take) : TakeMemory := { m with takes := Tab.put m.takes id t }

/-- The chapters of a title, ascending, with their numbers. -/
def State.titleChapters (s : State) (th : Nat) : Tab Chapter := s.chapters.filter (fun e => decide (e.1 / 128 = th))

/-- The takes of a title, ascending, with their ids. -/
def State.titleTakes (s : State) (th : Nat) : Tab Take := s.takeMem.takes.filter (fun e => decide (e.2.title = th))

/-- A chapter in a lane (R4). -/
def ChapterState.inLane : ChapterState → Bool
  | .measuring | .encoding | .commitWait => true
  | _ => false

/-- Some chapter of the title is in a lane (R5 step 3, R15). -/
def State.titleInLane (s : State) (th : Nat) : Bool := (s.titleChapters th).any (fun e => e.2.state.inLane)

/-- Some take of the title is RECORDING (R14, R15). -/
def State.titleRecording (s : State) (th : Nat) : Bool :=
  (s.titleTakes th).any (fun e => decide (e.2.state = .recording))

/-- R5: every published chapter of the title is marked stale. -/
def State.markStale (s : State) (th : Nat) : State :=
  { s with chapters :=
      s.chapters.map (fun e => if e.1 / 128 = th ∧ e.2.published = true then (e.1, { e.2 with stale := true }) else e) }

/-- The lengths of the segments and of the gaps between them (R22). -/
def segmentsLength : List Segment → Nat
  | [] => 0
  | [g] => g.length
  | g :: h :: t => g.length + g.gap + segmentsLength (h :: t)

/-- R22: the length of a chapter with these pads and segments. -/
def timelineLength (head : Nat) (segments : List Segment) (tail : Nat) : Nat := head + segmentsLength segments + tail

/-- The length of a chapter as its record stands (R22). -/
def Chapter.length (c : Chapter) : Nat := timelineLength c.headPad c.segments c.tailPad

/-- The number of blocks of a length (R22, R104). -/
def blockCount (length : Nat) : Nat := (length + 1023) / 1024

/-- The length of a lane's timeline copy. -/
def Timeline.length (t : Timeline) : Nat := timelineLength t.headPad t.segments t.tailPad

/-- The block count of a lane's timeline copy. -/
def Timeline.blocks (t : Timeline) : Nat := blockCount t.length

/-! ### Queue, lanes, holds -/

/-- Append a chapter to the tail of a FIFO. -/
def RenderQueue.append (q : RenderQueue) (p : Priority) (c : ChapterId) : RenderQueue :=
  match p with
  | .rush => { q with rush := q.rush ++ [c] }
  | .normal => { q with normal := q.normal ++ [c] }

/-- Remove the chapters that satisfy a test from both FIFOs; the others keep their order. -/
def RenderQueue.remove (q : RenderQueue) (f : ChapterId → Bool) : RenderQueue :=
  { q with rush := q.rush.filter (fun c => !f c), normal := q.normal.filter (fun c => !f c) }

/-- The FIFO a priority names. -/
def RenderQueue.fifo (q : RenderQueue) : Priority → List ChapterId
  | .rush => q.rush
  | .normal => q.normal

/-- Replace a lane record. -/
def State.setLane (s : State) (i : Fin 4) (l : Lane) : State := { s with lanes := s.lanes.set i l }

/-- The lane that holds a chapter. -/
def State.laneOf (s : State) (c : ChapterId) : Option (Fin 4) :=
  fourIndexes.find? (fun i =>
    match (s.lanes.get i).render with
    | none => false
    | some r => decide (r.chapter = c))

/-- The state of a lane (R83). -/
def Stage.laneState : Stage → LaneState
  | .measure _ _ => .measure
  | .encode _ _ _ _ => .encode
  | .commitWait _ _ _ => .commitWait

/-- The state of a lane (R83). -/
def Lane.state (l : Lane) : LaneState :=
  match l.render with
  | none => .idle
  | some r => r.stage.laneState

/-- The encoder records of a pass; none before the end of the measure pass. -/
def Stage.encoders : Stage → List Encoder
  | .measure _ _ => []
  | .encode _ _ _ e => e
  | .commitWait _ _ e => e

/-- The lane is named by a slot of the pattern in force. -/
def Wheel.names (w : Wheel) (i : Fin 4) : Bool := w.pattern.toList.any (fun e => decide (e = some i))

/-- R81: a lane is dispatchable. -/
def State.dispatchable (s : State) (i : Fin 4) : Bool :=
  ((s.lanes.get i).render).isNone && (s.lanes.get i).enabled && s.wheel.names i

/-- Some hold names the chapter, on any rendition and from any port. -/
def State.held (s : State) (c : ChapterId) : Bool := s.holdTable.holds.any (fun e => decide (e.2.chapter = c))

/-- The holds of one port. -/
def State.holdsOf (s : State) (p : Port) : Tab Hold := s.holdTable.holds.filter (fun e => decide (e.2.owner = p))

/-- The generation of a hold slot, 1 to 16. -/
def HoldTable.generation (h : HoldTable) (slot : Nat) : Nat := h.gens.getD (slot - 1) 0

/-! ### Ports -/

/-- One port of the three. -/
def Ports.get (q : Ports) : Port → PortRecord
  | .a => q.a
  | .b => q.b
  | .c => q.c

/-- The ports with one replaced. -/
def Ports.set (q : Ports) (p : Port) (r : PortRecord) : Ports :=
  match p with
  | .a => { q with a := r }
  | .b => { q with b := r }
  | .c => { q with c := r }

/-- The same change at every port. -/
def Ports.map (q : Ports) (f : PortRecord → PortRecord) : Ports := { a := f q.a, b := f q.b, c := f q.c }

/-- One port of the part. -/
def State.port (s : State) (p : Port) : PortRecord := s.ports.get p

/-- Replace one port. -/
def State.setPort (s : State) (p : Port) (r : PortRecord) : State := { s with ports := s.ports.set p r }

/-- Change one port. -/
def State.changePort (s : State) (p : Port) (f : PortRecord → PortRecord) : State := s.setPort p (f (s.port p))

/-- Set the discard sequence of a port. -/
def State.setSequence (s : State) (p : Port) (d : DiscardSeq) : State := s.changePort p (fun r => { r with sequence := d })

/-- The sequence is in FIRST_SET or BOTH_SET. -/
def DiscardSeq.isSet : DiscardSeq → Bool
  | .none => false
  | .firstSet _ _ => true
  | .bothSet _ _ _ => true

/-- The take the marks name. -/
def DiscardSeq.take? : DiscardSeq → Option Nat
  | .none => Option.none
  | .firstSet t _ => some t
  | .bothSet t _ _ => some t

/-- R72: at every port whose marks name the take, the sequence returns to NONE. -/
def Ports.dropMarks (q : Ports) (take : Nat) : Ports :=
  q.map (fun r => if r.sequence.take? = some take then { r with sequence := .none } else r)

/-- A take record leaves the take table, and every discard sequence that marks it ends (R72). -/
def State.dropTake (s : State) (id : Nat) : State :=
  { s with takeMem := { s.takeMem with takes := Tab.drop s.takeMem.takes id }, ports := s.ports.dropMarks id }

/-! ### The ATTN outputs -/

/-- R177: some list that the mask selects holds an entry. -/
def NoticeLists.selected (l : NoticeLists) (m : NoticeMask) : Bool :=
  (m.done && !l.done.isEmpty) || (m.failed && !l.failed.isEmpty) || (m.starved && !l.starved.isEmpty) ||
  (m.restored && !l.restored.isEmpty) || (m.expired && !l.expired.isEmpty)

/-- R177, R191: every ATTN output follows its port's lists and mask, and is deasserted while a device reset is held. Every
meaning ends with this, so the lines change in the event that changes the condition. -/
def State.driveAttn (s : State) : State :=
  { s with ports := s.ports.map (fun r => { r with attn := s.resetHeld.isNone && r.lists.selected r.mask }) }

/-- The end of every meaning: the ATTN outputs follow, and the command completes. -/
def finish (s : State) : Host.Outcome State Fault Refusal := .next s.driveAttn

/-- An event inside the part, which does not happen while a device reset is held (assumption 5). -/
def event (f : State → State) (s : State) : Host.Outcome State Fault Refusal :=
  finish (if s.resetHeld.isSome then s else f s)

end Sys2Proof.Machine
end

