-- ==== Sys2Proof/Machine/Assembly.lean ====
section
/-! DEFINITION. The Assembly Unit (06_chapter_assembly.md): the timeline, the place each chapter sample comes from, and the
building of one block with its lane reads. -/

namespace Sys2Proof.Machine

/-- A part of the timeline (R98): a pad or gap of some length, or a segment. -/
inductive Part where
  | tone (length : Nat)
  | segment (g : Segment)
  deriving DecidableEq, Repr

/-- The positions a part occupies. -/
def Part.length : Part → Nat
  | .tone n => n
  | .segment g => g.length

/-- The segments with the gaps between them; the gap after the last is no part (R98). -/
def segmentParts : List Segment → List Part
  | [] => []
  | [g] => [.segment g]
  | g :: h :: t => .segment g :: .tone g.gap :: segmentParts (h :: t)

/-- The timeline of a chapter, in order (R98). -/
def Timeline.parts (t : Timeline) : List Part := .tone t.headPad :: (segmentParts t.segments ++ [.tone t.tailPad])

/-- Where a chapter sample comes from: nowhere (0), or a take sample, whole or with the weight of a fade. -/
inductive Source where
  | zero
  | sample (take index : Nat) (weight : Option Nat)
  deriving DecidableEq, Repr

/-- The weight of the sample at place `k` of a fade of `f` samples (R100, R101). -/
def fadeWeight (k f : Nat) : Nat := (k + 1) * 65536 / (f + 1)

/-- R99 to R101: the source at offset `d` of a segment. -/
def segmentSource (g : Segment) (d : Nat) : Source :=
  .sample g.take (g.start + d)
    (if d < g.fadeIn then some (fadeWeight d g.fadeIn)
     else if g.length - 1 - d < g.fadeOut then some (fadeWeight (g.length - 1 - d) g.fadeOut)
     else none)

/-- R102, R103: the source at offset `k` of a pad or gap. -/
def toneSource (tone : Option RoomSpan) (k : Nat) : Source :=
  match tone with
  | none => .zero
  | some r => .sample r.take (r.start + k % r.length) none

/-- The source at an offset of a part. -/
def Part.source (tone : Option RoomSpan) (d : Nat) : Part → Source
  | .tone _ => toneSource tone d
  | .segment g => segmentSource g d

/-- R98: the source of a chapter sample position. Past the end there is nothing. -/
def sourceAt (tone : Option RoomSpan) : List Part → Nat → Source
  | [], _ => .zero
  | part :: rest, p => if p < part.length then part.source tone p else sourceAt tone rest (p - part.length)

/-- R104: the number of samples of block `n` of a chapter of length `length`. -/
def blockSize (length n : Nat) : Nat := min 1024 (length - n * 1024)

/-- R105: the block at position `n` ends a quad. -/
def endsQuad (blocks n : Nat) : Bool := decide (n % 4 = 3) || decide (n + 1 = blocks)

/-- The sources of the samples of block `n`, in ascending position (R107). -/
def blockSources (t : Timeline) (tone : Option RoomSpan) (n : Nat) : List Source :=
  (List.range' (n * 1024) (blockSize t.length n)).map (sourceAt tone t.parts)

/-- R100: the weighted sample; floor rounds toward −∞. -/
def weigh (weight : Option Nat) (x : Int) : Int :=
  match weight with
  | none => x
  | some w => x * (w : Int) / 65536

/-- The 1,024 stored samples of block position `q` of group `g` (R62). -/
def storedSamples (m : Memory) (g q : Nat) : List Int :=
  (List.range 1024).map (fun i =>
    sampleOf (Memory.read m (blockAddress g q + 3 * i)) (Memory.read m (blockAddress g q + 3 * i + 1))
      (Memory.read m (blockAddress g q + 3 * i + 2)))

/-- What building a block comes to. -/
inductive Built where
  /-- R107: the block is complete, with the take block held after it. -/
  | complete (held : Option HeldBlock) (samples : List Int)
  /-- R109: a lane read of this group reported an uncorrectable error. -/
  | readError (group : Nat)
  /-- The block asked for lies in no owned group. -/
  | stray
  deriving DecidableEq, Repr

/-- The samples of the block that come next, before the rest is built. -/
def Built.cons (x : Int) : Built → Built
  | .complete held xs => .complete held (x :: xs)
  | .readError g => .readError g
  | .stray => .stray

/-- What a visit to a take block comes to: the block, held from then on, and the number of lane reads made in the slot. -/
inductive Visit where
  | got (h : HeldBlock) (reads : Nat)
  | readError (group : Nat)
  | stray
  deriving DecidableEq, Repr

/-- R62, R63, R107: visit a take block. The held block is used again without a read; any other is read, and the read numbered
`failRead` of the slot reports an uncorrectable error. -/
def visitBlock (m : TakeMemory) (failRead : Option Nat) (take block : Nat) (held : Option HeldBlock) (reads : Nat) : Visit :=
  match held.filter (fun h => decide (h.take = take ∧ h.block = block)) with
  | some h => .got h reads
  | none =>
    match m.blockGroup take block with
    | none => .stray
    | some g =>
      if failRead = some reads then .readError g
      else .got { take := take, block := block, samples := storedSamples m.mem g (block % 256) } (reads + 1)

/-- R107 to R109: build the samples of the sources in order. `held` is the held take block and `reads` the number of lane reads
made in the slot so far. Building stops at the first read that fails. -/
def buildBlock (m : TakeMemory) (failRead : Option Nat) : List Source → Option HeldBlock → Nat → Built
  | [], held, _ => .complete held []
  | .zero :: rest, held, reads => (buildBlock m failRead rest held reads).cons 0
  | .sample take index weight :: rest, held, reads =>
      match visitBlock m failRead take (index / 1024) held reads with
      | .stray => .stray
      | .readError g => .readError g
      | .got h reads' =>
          (buildBlock m failRead rest (some h) reads').cons (weigh weight (h.samples.getD (index % 1024) 0))

end Sys2Proof.Machine
end

