-- ==== Sys2Proof/Machine/Flags.lean ====
section
/-! DEFINITION. The codes of named values, statuses and flags, and the flags words of replies and images (R187, R188,
08_rendition_coding.md Formats). -/

namespace Sys2Proof.Machine

/-- A yes-or-no result or a mark (R187). -/
def yesNo (b : Bool) : Nat := if b then 1 else 0

/-- The status code (R187, Status codes). -/
def Status.code : Status → Nat
  | .ok => 0x00
  | .class_ => 0x01
  | .malformed => 0x02
  | .badHandle => 0x03
  | .badState => 0x04
  | .range => 0x05
  | .full => 0x06
  | .notReady => 0x07
  | .locked => 0x08
  | .busy => 0x09
  | .crcError => 0x0A
  | .seqMismatch => 0x0B
  | .sequence => 0x0C
  | .tooLate => 0x0D
  | .programFault => 0x0E

/-- The flags byte of a reply: bit 0 DISCARD_RESET to bit 6 EMPTY, bit 7 zero (R187). -/
def ReplyFlags.byte (f : ReplyFlags) : Nat :=
  yesNo f.discardReset + 2 * yesNo f.stale + 4 * yesNo f.clamped + 8 * yesNo f.skipped + 16 * yesNo f.existing +
    32 * yesNo f.freed + 64 * yesNo f.empty

/-- The reply frame: the 5-byte header and the results (R187). -/
def Reply.bytes (r : Reply) : List Byte :=
  le 1 r.status.code ++ (r.tag :: (le 1 r.flags.byte ++ (le 2 r.results.length ++ r.results)))

/-- The title states in the order of R1: FREE is 0. -/
def TitleState.code : TitleState → Nat
  | .opened => 1
  | .held => 2
  | .final => 3

/-- The chapter states in the order of R19; UNDEFINED is 0xFF (R187). -/
def ChapterState.code : ChapterState → Nat
  | .draft => 0
  | .queued => 1
  | .measuring => 2
  | .encoding => 3
  | .commitWait => 4
  | .done => 5
  | .failed => 6

/-- NORMAL is 0 and RUSH is 1 (R187). -/
def Priority.code : Priority → Nat
  | .normal => 0
  | .rush => 1

/-- The priority that an operand byte names. -/
def Priority.ofCode? : Nat → Option Priority
  | 0 => some .normal
  | 1 => some .rush
  | _ => none

/-- The take states in the order of R49. -/
def TakeState.code : TakeState → Nat
  | .recording => 0
  | .closed => 1
  | .faulted => 2

/-- The lane states in the order of R83. -/
def LaneState.code : LaneState → Nat
  | .idle => 0
  | .measure => 1
  | .encode => 2
  | .commitWait => 3

/-- The ways a render ends, in the order of R93. -/
def EndWay.code : EndWay → Nat
  | .committed => 0
  | .failed => 1
  | .cancelled => 2
  | .aborted => 3
  | .deleted => 4

/-- The causes in the order of R169. -/
def FailCause.code : FailCause → Nat
  | .takeFault => 0
  | .noSpace => 1

/-- The roles in the order of R180. -/
def Role.code : Role → Nat
  | .ingest => 0
  | .edit => 1
  | .delivery => 2
  | .full => 3

/-- POWER_ON is 0 and PIN is 1 (R187). -/
def causeCode : ResetCause → Nat
  | .powerOn => 0
  | .pin => 1

/-- A wheel slot entry: the lane number, or 0xFF for NONE (R187). -/
def slotCode : Option (Fin 4) → Nat
  | none => 0xFF
  | some i => i.val

/-- The wheel slot entry that an operand byte names; `none` for a byte that names neither a lane nor NONE (R86). -/
def slotOfCode? (n : Nat) : Option (Option (Fin 4)) :=
  if h : n < 4 then some (some ⟨n, h⟩) else if n = 0xFF then some none else none

/-- The gain flags as bits 0 to 3 of the flags word (R147, R187). -/
def GainRecord.flagsWord (g : GainRecord) : Nat :=
  yesNo g.silent + 2 * yesNo g.gainClamped + 4 * yesNo g.peakLimited + 8 * yesNo g.underTarget

/-- The flags word of an image header: the gain flags, bit 4 STARVED_END, bit 5 ROOMTONE_MISSING (R147). -/
def imageFlagsWord (g : GainRecord) (starvedEnd roomtoneMissing : Bool) : Nat :=
  g.flagsWord + 16 * yesNo starvedEnd + 32 * yesNo roomtoneMissing

/-- The flag byte of a frame header: bit 0 VOICED, bit 1 starved (R141). -/
def frameFlags (voiced starved : Bool) : Nat := yesNo voiced + 2 * yesNo starved

end Sys2Proof.Machine
end

