-- ==== Sys2Proof/Machine/Levels.lean ====
section
/-! DEFINITION. The exact conversions of 07_loudness_and_gain.md: energies and magnitudes to levels, and a gain to a factor.
Each is the integer comparison that the rule's own definition comes to when both sides are raised to a whole power. -/

namespace Sys2Proof.Machine

/-- The least number from `k` on that passes the test, or `k + n` if none of the next `n` does. -/
def firstFrom (p : Nat → Bool) : Nat → Nat → Nat
  | 0, k => k
  | n + 1, k => if p k then k else firstFrom p n (k + 1)

/-- R113: E ≥ 2^46 × 10^((2n − 1) / 200) with n = −k, both sides to the power 200. -/
def energyAtLeast (e k : Nat) : Bool := decide (2 ^ 9200 ≤ e ^ 200 * 10 ^ (2 * k + 1))

/-- R113: the level of an energy: the greatest n from −899 to 0 whose threshold E reaches, or −900. -/
def energyLevel (e : Nat) : Int := -((firstFrom (energyAtLeast e) 900 0 : Nat) : Int)

/-- R114: P ≥ 2^23 × 10^((2n − 1) / 400) with n = −k, both sides to the power 400. -/
def peakAtLeast (p k : Nat) : Bool := decide (2 ^ 9200 ≤ p ^ 400 * 10 ^ (2 * k + 1))

/-- R114: the peak level of a magnitude: the greatest n from −899 to 0 whose threshold P reaches, or −900. -/
def peakLevel (p : Nat) : Int := -((firstFrom (peakAtLeast p) 900 0 : Nat) : Int)

/-- q − 1/2 ≤ 10^(g / 200) × 2^20, both sides doubled and to the power 200 (R125). -/
def factorAtMost (g : Int) (q : Nat) : Bool :=
  if 0 ≤ g then decide ((2 * q - 1) ^ 200 ≤ 10 ^ g.toNat * 2 ^ 4200)
  else decide ((2 * q - 1) ^ 200 * 10 ^ (-g).toNat ≤ 2 ^ 4200)

/-- The greatest number that passes a test which fails from some point on, its binary digits found from the highest. -/
def greatest (p : Nat → Bool) : Nat → Nat → Nat
  | 0, acc => acc
  | n + 1, acc => greatest p n (if p (acc + 2 ^ n) then acc + 2 ^ n else acc)

/-- R125: the gain factor Q, the nearest integer to 10^(G / 200) × 2^20, a halfway value rounding up. -/
def gainFactor (g : Int) : Nat := greatest (factorAtMost g) 25 0

/-- R126: x × Q / 2^20 to the nearest integer, a halfway value rounding up. -/
def gained (q : Nat) (x : Int) : Int := (x * (q : Int) + 524288) / 1048576

/-- R126: the saturated sample. -/
def saturate (y : Int) : Int := if 8388607 < y then 8388607 else if y < -8388608 then -8388608 else y

/-- The clamp of a value into a range (R6, R121, R155). -/
def clampTo (lo hi x : Int) : Int := if x < lo then lo else if hi < x then hi else x

end Sys2Proof.Machine
end

