-- ==== Sys2Proof/Machine/Loudness.lean ====
section
/-! DEFINITION. The Loudness Unit and the gain computation (07_loudness_and_gain.md). -/

namespace Sys2Proof.Machine

/-- R112: the Loudness Unit at dispatch. -/
def Meter.start : Meter := { peak := 0, quadSum := 0, quadCount := 0, bins := List.replicate 901 { count := 0, sum := 0 } }

/-- The place of a level's bin. -/
def binPlace (level : Int) : Nat := (level + 900).toNat

/-- R115, R116: one sample joins the peak and the open quad. -/
def Meter.addSample (m : Meter) (x : Int) : Meter :=
  { m with peak := max m.peak x.natAbs, quadSum := m.quadSum + x.natAbs ^ 2, quadCount := m.quadCount + 1 }

/-- R116 step 1: the energy of the open quad. -/
def Meter.quadEnergy (m : Meter) : Nat := m.quadSum / m.quadCount

/-- R116: the open quad closes into the bin of its level. -/
def Meter.closeQuad (m : Meter) : Meter :=
  { m with
    bins := m.bins.modify (binPlace (energyLevel m.quadEnergy))
      (fun b => { count := b.count + 1, sum := b.sum + m.quadEnergy }),
    quadSum := 0, quadCount := 0 }

/-- R115, R116: one block of the measure pass. -/
def Meter.addBlock (m : Meter) (xs : List Int) (closes : Bool) : Meter :=
  if closes then (xs.foldl Meter.addSample m).closeQuad else xs.foldl Meter.addSample m

/-- The bins whose level is at least `least`, of the 901 bins of levels −900 to 0. -/
def binsFrom (bins : List Bin) (least : Int) : List Bin := bins.drop (binPlace least)

/-- The sum of the counts of some bins. -/
def countOf (bins : List Bin) : Nat := (bins.map (fun b => b.count)).sum

/-- The mean energy of some bins (R119, R120). -/
def meanOf (bins : List Bin) : Nat := (bins.map (fun b => b.sum)).sum / countOf bins

/-- R118 to R120: the integrated loudness, or `none` for a chapter that is SILENT. -/
def integrated (bins : List Bin) (absGate : Int) : Option Int :=
  if countOf (binsFrom bins absGate) = 0 then none
  else
    some (energyLevel (meanOf (binsFrom bins (max absGate (energyLevel (meanOf (binsFrom bins absGate)) - 100)))))

/-- R121 to R125: the gain record from the integrated loudness, the peak level and the parameter copy. -/
def gainRecord (loudness : Loudness) (lint? : Option Int) (lp : Int) : GainRecord :=
  let raw : Int := match lint? with
    | none => 0
    | some lint => loudness.target - lint
  let clamped := clampTo (-200) 240 raw
  let limited := decide (loudness.ceiling < lp + clamped)
  let g := if limited then loudness.ceiling - lp else clamped
  let lout : Int := match lint? with
    | none => -900
    | some lint => lint + g
  { lint := lint?.getD (-900), lp := lp, g := g, lout := lout, q := gainFactor g,
    silent := lint?.isNone, gainClamped := decide (clamped ≠ raw), peakLimited := limited,
    underTarget := lint?.isSome && decide (lout < loudness.target - loudness.tolerance) }

/-- R118 to R125: the gain record of a lane, at the end of the measure pass. -/
def Meter.gain (m : Meter) (loudness : Loudness) : GainRecord :=
  gainRecord loudness (integrated m.bins loudness.absGate) (peakLevel m.peak)

/-- R126: the gained block. -/
def gainBlock (q : Nat) (xs : List Int) : List Int := xs.map (fun x => saturate (gained q x))

/-- R127: how many samples of a block the gain stage saturates. -/
def saturations (q : Nat) (xs : List Int) : Nat := xs.countP (fun x => decide (saturate (gained q x) ≠ gained q x))

/-- The energy of a run of samples: the floor of the mean of their squares (R132). -/
def energyOf (ys : List Int) : Nat := (ys.map (fun y => y.natAbs ^ 2)).sum / ys.length

end Sys2Proof.Machine
end

