-- ==== Sys2Proof/Machine/Notices.lean ====
section
/-! DEFINITION. How entries join and leave the notice lists (10_notice_lists_and_attention.md). -/

namespace Sys2Proof.Machine

/-- R169: an entry whose key is present replaces it where it stands; otherwise it joins at the tail. -/
def upsert {α : Type} (same : α → Bool) (e : α) : List α → List α
  | [] => [e]
  | x :: xs => if same x then e :: xs else x :: upsert same e xs

/-- R170: a commit's entry in one port's DONE list. -/
def NoticeLists.postDone (l : NoticeLists) (c : ChapterId) (serial : Nat) : NoticeLists :=
  { l with done := upsert (fun e => decide (e.chapter = c)) { chapter := c, serial := serial } l.done }

/-- R170: a failure's entry in one port's FAILED list. -/
def NoticeLists.postFailed (l : NoticeLists) (c : ChapterId) (cause : FailCause) : NoticeLists :=
  { l with failed := upsert (fun e => decide (e.chapter = c)) { chapter := c, cause := cause } l.failed }

/-- R171: a starve crossing moves the key from RESTORED to STARVED. -/
def NoticeLists.postStarve (l : NoticeLists) (c : ChapterId) (rendition frame : Nat) : NoticeLists :=
  { l with
    restored := l.restored.filter (fun e => !decide (e.chapter = c ∧ e.rendition = rendition)),
    starved := upsert (fun e => decide (e.chapter = c ∧ e.rendition = rendition)) ⟨c, rendition, frame⟩ l.starved }

/-- R171: a restore moves the key from STARVED to RESTORED. -/
def NoticeLists.postRestore (l : NoticeLists) (c : ChapterId) (rendition frame : Nat) (ended : Bool) : NoticeLists :=
  { l with
    restored := upsert (fun e => decide (e.chapter = c ∧ e.rendition = rendition)) ⟨c, rendition, frame, ended⟩ l.restored,
    starved := l.starved.filter (fun e => !decide (e.chapter = c ∧ e.rendition = rendition)) }

/-- R172: an expiry's entry in its owner's HOLD_EXPIRED list, keyed by the slot. -/
def NoticeLists.postExpired (l : NoticeLists) (slot generation : Nat) (c : ChapterId) (rendition : Nat) : NoticeLists :=
  { l with expired := upsert (fun e => decide (e.slot = slot)) ⟨slot, generation, c, rendition⟩ l.expired }

/-- R174: every entry that names a chapter satisfying the test leaves; the others keep their order. -/
def NoticeLists.removeNaming (l : NoticeLists) (f : ChapterId → Bool) : NoticeLists :=
  { done := l.done.filter (fun e => !f e.chapter), failed := l.failed.filter (fun e => !f e.chapter),
    starved := l.starved.filter (fun e => !f e.chapter), restored := l.restored.filter (fun e => !f e.chapter),
    expired := l.expired.filter (fun e => !f e.chapter) }

/-- The same change of the notice lists at every port. -/
def Ports.notify (q : Ports) (f : NoticeLists → NoticeLists) : Ports := q.map (fun r => { r with lists := f r.lists })

/-- The same change of the notice lists at every port. -/
def State.notify (s : State) (f : NoticeLists → NoticeLists) : State := { s with ports := s.ports.notify f }

/-- A crossing of an encoder (R136), or its restore with the ended mark (R138, R139). -/
inductive Crossing where
  | starve (rendition frame : Nat)
  | restore (rendition frame : Nat) (ended : Bool)
  deriving DecidableEq, Repr

/-- R171: one crossing of a chapter's encoder, in one port's lists. -/
def NoticeLists.postCrossing (c : ChapterId) (l : NoticeLists) : Crossing → NoticeLists
  | .starve r n => l.postStarve c r n
  | .restore r n ended => l.postRestore c r n ended

/-- R173: several crossings of a chapter's encoders, in the order given, in one port's lists. -/
def NoticeLists.postCrossings (c : ChapterId) (xs : List Crossing) (l : NoticeLists) : NoticeLists :=
  xs.foldl (NoticeLists.postCrossing c) l

end Sys2Proof.Machine
end

