-- ==== Sys2Proof/Machine/Coding.lean ====
section
/-! DEFINITION. The Rendition Coder (08_rendition_coding.md): classes, credit and grant, starve state, pages, frame bytes,
checksum and image header. -/

namespace Sys2Proof.Machine

/-- R130: an encoder at the end of the measure pass. -/
def Encoder.start (rendition : Nat) (p : Profile) : Encoder :=
  { rendition := rendition, profile := p, credit := p.cmax, starved := false, frames := 0, starvedFrames := 0,
    byteCount := 64, crc := 0xFFFFFFFF#32, pages := [], lastCrossing := none, inputs := [] }

/-- R130: one encoder for each profile, numbered from `k` on. -/
def startEncoders : Nat → List Profile → List Encoder
  | _, [] => []
  | k, p :: ps => Encoder.start k p :: startEncoders (k + 1) ps

/-- R132: the frame is of class VOICED. -/
def isVoiced (silence : Int) (ys : List Int) : Bool := decide (¬ energyLevel (energyOf ys) < silence)

/-- R133: the demand of a frame at an encoder. -/
def Encoder.demand (e : Encoder) (voiced : Bool) : Nat := if voiced then e.profile.bpeak else e.profile.bmin

/-- R134: the grant. -/
def Encoder.grant (e : Encoder) (voiced : Bool) : Nat := min (e.demand voiced) (e.profile.bsus + e.credit)

/-- R134: the new credit. -/
def Encoder.nextCredit (e : Encoder) (voiced : Bool) : Nat :=
  min (e.credit + e.profile.bsus - e.grant voiced) e.profile.cmax

/-- R135: the frame is starved at the encoder. -/
def Encoder.starvesFrame (e : Encoder) (voiced : Bool) : Bool := decide (e.grant voiced < e.demand voiced)

/-- R136: the starve state after a frame that leaves a credit. -/
def Encoder.nextStarved (e : Encoder) (credit : Nat) : Bool :=
  if e.starved then decide (credit < e.profile.ts + e.profile.d) else decide (credit < e.profile.ts)

/-- R144: the frame reaches past the end of the encoder's page list. -/
def Encoder.needsPage (e : Encoder) (voiced : Bool) : Bool :=
  decide (4096 * e.pages.length ≤ e.byteCount + 4 + e.grant voiced - 1)

/-- R140 step 3: the pages a frame needs are drawn from the head of the pool, in ascending rendition index. The answer is the
encoders with the pages drawn, the pool left, and whether no encoder met an empty pool. -/
def drawPages (voiced : Bool) : List Encoder → List Nat → List Encoder × List Nat × Bool
  | [], pool => ([], pool, true)
  | e :: es, pool =>
      if e.needsPage voiced then
        match pool with
        | [] => (e :: es, [], false)
        | g :: pool' =>
            ({ e with pages := e.pages ++ [g] } :: (drawPages voiced es pool').1, (drawPages voiced es pool').2)
      else (e :: (drawPages voiced es pool).1, (drawPages voiced es pool).2)

/-- One bit of the CRC-32, in the reflected form (R146). -/
def crc32Bit (c : BitVec 32) : BitVec 32 := if c.getLsbD 0 then (c >>> 1) ^^^ 0xEDB88320#32 else c >>> 1

/-- One byte of the CRC-32. -/
def crc32Byte (c : BitVec 32) (b : Byte) : BitVec 32 := Nat.repeat crc32Bit 8 (c ^^^ b.zeroExtend 32)

/-- Bytes shifted into the CRC register (R146). -/
def crc32Bytes (c : BitVec 32) (bs : List Byte) : BitVec 32 := bs.foldl crc32Byte c

/-- What an encoder has been given when it takes a frame, the frame itself included (R142). -/
def Encoder.inputsWith (e : Encoder) (voiced : Bool) (ys : List Int) : List Config.FrameInput :=
  e.inputs ++ [{ samples := ys, voiced := voiced, grant := e.grant voiced }]

/-- The payload of a frame: exactly grant bytes of the coder's output (R142), a free value (assumption 1). -/
def Encoder.payload (e : Encoder) (voiced : Bool) (ys : List Int) : List Byte :=
  (List.range (e.grant voiced)).map (Config.payloadByte e.profile (e.inputsWith voiced ys))

/-- The bytes of a frame: its header and payload (R141). -/
def Encoder.frameBytes (e : Encoder) (voiced : Bool) (ys : List Int) : List Byte :=
  0x5A#8 :: (le 1 (frameFlags voiced (e.starvesFrame voiced)) ++ (le 2 (e.grant voiced) ++ e.payload voiced ys))

/-- R140 step 4: the encoder after it has taken frame `n`. -/
def Encoder.takeFrame (e : Encoder) (voiced : Bool) (ys : List Int) (n : Nat) : Encoder :=
  { e with
    credit := e.nextCredit voiced, starved := e.nextStarved (e.nextCredit voiced), frames := e.frames + 1,
    starvedFrames := e.starvedFrames + yesNo (e.starvesFrame voiced), byteCount := e.byteCount + 4 + e.grant voiced,
    crc := crc32Bytes e.crc (e.frameBytes voiced ys),
    lastCrossing := if e.nextStarved (e.nextCredit voiced) = e.starved then e.lastCrossing else some n,
    inputs := e.inputsWith voiced ys }

/-- R136: the crossing that taking frame `n` makes, if it makes one. -/
def Encoder.crossing (e : Encoder) (voiced : Bool) (n : Nat) : Option Crossing :=
  match e.starved, e.nextStarved (e.nextCredit voiced) with
  | false, true => some (.starve e.rendition n)
  | true, false => some (.restore e.rendition n false)
  | _, _ => none

/-- R140 step 4: the frame bytes of every encoder are stored, in ascending rendition index. -/
def writeFrames (m : Memory) (voiced : Bool) (ys : List Int) (es : List Encoder) : Memory :=
  es.foldl (fun m e => writeImage m e.pages e.byteCount (e.frameBytes voiced ys)) m

/-- R138, R139: the restores with the ended mark of the encoders that are STARVED, in ascending rendition index, each with the
position of the last frame the encoder took. -/
def endedRestores (es : List Encoder) : List Crossing :=
  es.filterMap (fun e => if e.starved then some (.restore e.rendition (e.frames - 1) true) else none)

/-- R147: the 64 bytes of an image header, the render serial 0 in its place. -/
def headerBytes (catalogue : Nat) (c : ChapterId) (gain : GainRecord) (roomtoneMissing : Bool) (length saturated : Nat)
    (e : Encoder) : List Byte :=
  [0x47#8, 0x5A#8, 0x43#8, 0x48#8] ++ le 8 catalogue ++ le 1 c.index ++ le 1 e.rendition ++
    le 2 (imageFlagsWord gain e.starved roomtoneMissing) ++ le 2 0 ++ le 4 length ++ le 4 e.frames ++ le 4 e.byteCount ++
    leI gain.lint ++ leI gain.lp ++ leI gain.g ++ leI gain.lout ++ le 4 e.starvedFrames ++ le 4 saturated ++
    le 2 e.profile.bsus ++ le 2 e.profile.bpeak ++ le 4 (e.crc ^^^ 0xFFFFFFFF#32).toNat ++ List.replicate 10 0#8

/-- R138: the encoder after the restore at the end of the pass. -/
def Encoder.restored (e : Encoder) : Encoder := { e with starved := false }

/-- R148: the render serial is stored at image offsets 16 and 17. -/
def writeSerial (m : Memory) (serial : Nat) (pages : List Nat) : Memory := writeImage m pages 16 (le 2 serial)

/-- R152 step 3: an encoder's image as it stands in the published set. -/
def Encoder.image (e : Encoder) : Image := { rendition := e.rendition, pages := e.pages, byteCount := e.byteCount }

end Sys2Proof.Machine
end

