-- ==== Sys2Proof/Machine/Renders.lean ====
section
/-! DEFINITION. How a render ends (commit, failure, and the ends without a commit), how a hold ends, and what an edit does to
its chapter: the shared operations of 02, 05, 08 and 09. -/

namespace Sys2Proof.Machine

/-- R93: the last end of a render that is cancelled, aborted or deleted. -/
def Render.plainEnd (way : EndWay) (r : Render) : LastEnd :=
  { chapter := r.chapter, way := way, laneState := r.stage.laneState, cause := none, group := none, position := none,
    serial := none }

/-- R93: the last end of a render that failed. -/
def Render.failedEnd (cause : FailCause) (group position : Option Nat) (r : Render) : LastEnd :=
  { chapter := r.chapter, way := .failed, laneState := r.stage.laneState, cause := some cause, group := group,
    position := position, serial := none }

/-- R93: the last end of a render that was committed. -/
def Render.committedEnd (serial : Nat) (r : Render) : LastEnd :=
  { chapter := r.chapter, way := .committed, laneState := r.stage.laneState, cause := none, group := none, position := none,
    serial := some serial }

/-- The pages of all images that a lane holds in progress, in ascending rendition index and in page-list order. -/
def Render.pages (r : Render) : List Nat := r.stage.encoders.flatMap (fun e => e.pages)

/-- The lane record after it gives up its chapter (R83, R93). -/
def Lane.vacate (l : Lane) (e : LastEnd) : Lane := { l with render := none, lastEnd := some e }

/-- R30 steps 1 to 4, R92 steps 2 to 4: a lane ends its render without a commit. The STARVED encoders are restored with the
ended mark at every port, the pages of the images in progress join the pool, and the lane becomes IDLE. -/
def State.endLane (s : State) (i : Fin 4) (mark : Render → LastEnd) : State :=
  match (s.lanes.get i).render with
  | none => s
  | some r =>
    { s with
      ports := s.ports.notify (NoticeLists.postCrossings r.chapter (endedRestores r.stage.encoders)),
      rendMem := s.rendMem.free r.pages,
      lanes := s.lanes.set i ((s.lanes.get i).vacate (mark r)) }

/-- The lane that holds a chapter, if one does, ends its render without a commit. -/
def State.endRender (s : State) (c : ChapterId) (way : EndWay) : State :=
  match s.laneOf c with
  | none => s
  | some i => s.endLane i (Render.plainEnd way)

/-- R77: the count falls by one. -/
def RenderQueue.fewer (q : RenderQueue) (n : Nat) : RenderQueue := { q with count := q.count - n }

/-- R33: the serial that a commit assigns. -/
def nextSerial (n : Nat) : Nat := if n = 0 ∨ n = 65535 then 1 else n + 1

/-- R33: the chapter record at a commit. -/
def Chapter.committed (c : Chapter) : Chapter :=
  { c with serial := nextSerial c.serial, published := true, stale := false, state := .done }

/-- The serial that the commit of a chapter assigns. -/
def State.commitSerial (s : State) (c : ChapterId) : Nat :=
  match s.chapter? c with
  | none => 1
  | some k => nextSerial k.serial

/-- The pages of the published set of a chapter; none without a set. -/
def RenditionMemory.setPages (m : RenditionMemory) (c : ChapterId) : List Nat :=
  match Tab.look m.sets c.key with
  | none => []
  | some p => p.pages

/-- R152 steps 1 and 3: the old set's pages join the pool, the serial goes into every new header, and the lane's images become
the published set. -/
def RenditionMemory.publish (m : RenditionMemory) (c : ChapterId) (serial : Nat) (es : List Encoder) : RenditionMemory :=
  { pool := m.pool ++ m.setPages c,
    sets := Tab.put m.sets c.key { serial := serial, images := es.map Encoder.image },
    mem := es.foldl (fun mem e => writeSerial mem serial e.pages) m.mem }

/-- R152: the commit of the render that a lane holds. -/
def State.commit (s : State) (i : Fin 4) : State :=
  match (s.lanes.get i).render with
  | none => s
  | some r =>
    { s with
      rendMem := s.rendMem.publish r.chapter (s.commitSerial r.chapter) r.stage.encoders,
      chapters := Tab.change s.chapters r.chapter.key Chapter.committed,
      lanes := s.lanes.set i ((s.lanes.get i).vacate (r.committedEnd (s.commitSerial r.chapter))),
      queue := s.queue.fewer 1,
      ports := s.ports.notify (fun l => l.postDone r.chapter (s.commitSerial r.chapter)) }

/-- R162: if the chapter waits for its commit and no hold names it any more, the commit is taken. -/
def State.releaseCommit (s : State) (c : ChapterId) : State :=
  if s.held c then s
  else
    match s.chapter? c, s.laneOf c with
    | some k, some i => if k.state = .commitWait then s.commit i else s
    | _, _ => s

/-- R162: the hold in a slot ends; the slot keeps its generation. -/
def State.endHold (s : State) (slot : Nat) : State :=
  match Tab.look s.holdTable.holds slot with
  | none => s
  | some h =>
    ({ s with holdTable := { s.holdTable with holds := Tab.drop s.holdTable.holds slot } }).releaseCommit h.chapter

/-- R63: the group of an uncorrectable read gets the faulted mark. -/
def TakeMemory.markFaulted (m : TakeMemory) (g : Nat) : TakeMemory := m.setGroup g { m.group g with faulted := true }

/-- R92: the render of a lane fails. -/
def State.failRender (s : State) (i : Fin 4) (cause : FailCause) (group position : Option Nat) : State :=
  match (s.lanes.get i).render with
  | none => s
  | some r =>
    let s1 := s.endLane i (Render.failedEnd cause group position)
    { s1 with
      chapters := Tab.change s1.chapters r.chapter.key (fun k => { k with state := .failed }),
      ports := s1.ports.notify (fun l => l.postFailed r.chapter cause),
      queue := s1.queue.fewer 1 }

/-- R29: the state of a chapter after a taken edit. -/
def ChapterState.afterEdit : ChapterState → ChapterState
  | .draft => .draft
  | .queued => .queued
  | .measuring => .queued
  | .encoding => .queued
  | .commitWait => .queued
  | .done => .draft
  | .failed => .draft

/-- R29, R30: what a taken edit does, after its own changes `k` to the record of chapter `c`: the stale flag, and the state;
a render in a lane is aborted and the chapter re-queued at the tail of the FIFO of its priority. -/
def State.editChapter (s : State) (c : ChapterId) (k : Chapter) : State :=
  let s1 := s.setChapter c { k with stale := k.stale || k.published, state := k.state.afterEdit }
  if k.state.inLane then
    let s2 := s1.endRender c .aborted
    { s2 with queue := s2.queue.append k.priority c }
  else s1

/-- R34: the state of a chapter that a cancel takes out of the queue or out of a lane. -/
def Chapter.afterCancel (k : Chapter) : ChapterState := if k.published && !k.stale then .done else .draft

end Sys2Proof.Machine
end

