-- ==== Sys2Proof/Machine/Replies.lean ====
section
/-! DEFINITION. What a request answers, and the bytes of the results that several replies share (R187; the sizes of counts
are assumption 6). -/

namespace Sys2Proof.Machine

/-- The reply a request's owner gives: everything but the tag and DISCARD_RESET, which the port adds. -/
structure Result where
  status  : Status
  flags   : ReplyFlags := {}
  results : List Byte := []
  deriving DecidableEq, Repr

/-- A request either is answered at once or starts an operation that holds its port EXECUTING (R186). -/
inductive Answer where
  | reply (r : Result)
  | started (w : Work)
  deriving DecidableEq, Repr

/-- A refusal without results (R188). -/
def refuse (st : Status) (s : State) : Answer × State := (.reply { status := st }, s)

/-- A taken request: OK with these results and flags. -/
def accept (results : List Byte) (s : State) (flags : ReplyFlags := {}) : Answer × State :=
  (.reply { status := .ok, flags := flags, results := results }, s)

/-- A field that may be absent: a presence byte and the field's bytes, zeros when it is absent (R187). -/
def optional (size : Nat) : Option (List Byte) → List Byte
  | none => 0 :: List.replicate size 0
  | some bs => 1 :: bs

/-- A group-list entry (R187): 1 and the group number, count and mark, or 0 and zeros for a hole. -/
def entryBytes (m : TakeMemory) : Option Nat → List Byte
  | none => List.replicate 6 0
  | some g => 1 :: (le 2 g ++ (le 2 (m.group g).refs ++ le 1 (yesNo (m.group g).faulted)))

/-- The room-tone span: take id, start, length (R9). -/
def spanBytes (r : RoomSpan) : List Byte := le 2 r.take ++ (le 4 r.start ++ le 4 r.length)

/-- A chapter by its title handle and index. -/
def chapterBytes (c : ChapterId) : List Byte := le 1 c.title ++ le 1 c.index

/-- The four entries of a wheel pattern (R187). -/
def patternBytes (p : Pattern) : List Byte := p.toList.flatMap (fun e => le 1 (slotCode e))

/-- The enabled set as a mask, bit n for lane n (R187). -/
def enabledMask (f : Four Lane) : Nat :=
  yesNo f.e0.enabled + 2 * yesNo f.e1.enabled + 4 * yesNo f.e2.enabled + 8 * yesNo f.e3.enabled

/-- The notice mask, bit c for list code c (R187). -/
def NoticeMask.byte (m : NoticeMask) : Nat :=
  yesNo m.done + 2 * yesNo m.failed + 4 * yesNo m.starved + 8 * yesNo m.restored + 16 * yesNo m.expired

/-- The numbers of entries of the five lists (R175). -/
def NoticeLists.counts (l : NoticeLists) : List Byte :=
  le 2 l.done.length ++ (le 2 l.failed.length ++ (le 2 l.starved.length ++ (le 2 l.restored.length ++ le 1 l.expired.length)))

/-- R2: a request's owner goes on with the title record that the handle resolves to. -/
def withTitle (th : Nat) (s : State) (k : Title → Answer × State) : Answer × State :=
  match s.title? th with
  | none => refuse .badHandle s
  | some t => k t

/-- R50: it goes on with the take record that the id resolves to under the handle. -/
def withTake (th take : Nat) (s : State) (k : Take → Answer × State) : Answer × State :=
  match s.take? th take with
  | none => refuse .badHandle s
  | some t => k t

/-- R20: it goes on with the chapter record at the index. -/
def withChapter (th index : Nat) (s : State) (k : Chapter → Answer × State) : Answer × State :=
  if 127 < index then refuse .range s
  else
    match s.chapter? { title := th, index := index } with
    | none => refuse .badState s
    | some c => k c

end Sys2Proof.Machine
end

