-- ==== Sys2Proof/Machine/Chapters.lean ====
section
/-! DEFINITION. The chapter requests (02_chapters_and_splice_lists.md). -/

namespace Sys2Proof.Machine

/-- R23: a chapter at DEFINE-CHAPTER. -/
def newChapter : Chapter :=
  { state := .draft, segments := [], headPad := 24000, tailPad := 96000, priority := .normal, published := false, serial := 0,
    stale := false }

/-- R2, R11: a plan request of an OPEN title. -/
def withOpenTitle (th : Nat) (s : State) (k : Title → Answer × State) : Answer × State :=
  withTitle th s fun t => if t.state ≠ .opened then refuse .locked s else k t

/-- R23: DEFINE-CHAPTER. -/
def defineChapter (th index : Nat) (s : State) : Answer × State :=
  withOpenTitle th s fun _ =>
    if 127 < index then refuse .range s
    else
      match s.chapter? { title := th, index := index } with
      | some _ => refuse .badState s
      | none =>
        accept (le 1 index ++ le 1 ChapterState.draft.code ++ le 4 newChapter.headPad ++ le 4 newChapter.tailPad ++
            le 4 newChapter.length)
          (s.setChapter { title := th, index := index } newChapter)

/-- R31: the results of a taken edit of chapter `c`, which was in state `before`. -/
def editResults (before : ChapterState) (c : ChapterId) (s : State) : List Byte :=
  match s.chapter? c with
  | none => []
  | some k =>
    le 1 before.code ++ (le 1 k.state.code ++ (le 1 k.segments.length ++ (le 4 k.length ++ le 4 (blockCount k.length))))

/-- R31: the STALE flag of a taken edit's reply. -/
def editStale (c : ChapterId) (s : State) : Bool :=
  match s.chapter? c with
  | none => false
  | some k => k.stale

/-- R29, R31: an edit is taken, its own changes to the record being `k` and to take memory `m`. -/
def takeEdit (c : ChapterId) (k : Chapter) (m : TakeMemory) (s : State) : Answer × State :=
  accept (editResults k.state c ((s.setTakeMem m).editChapter c k)) ((s.setTakeMem m).editChapter c k)
    { stale := editStale c ((s.setTakeMem m).editChapter c k) }

/-- R28: SET-CHAPTER-PADS. -/
def setChapterPads (th index head tail : Nat) (s : State) : Answer × State :=
  withOpenTitle th s fun _ =>
    withChapter th index s fun k =>
      if 240000 < head ∨ 240000 < tail ∨ 268435456 < timelineLength head k.segments tail then refuse .range s
      else takeEdit { title := th, index := index } { k with headPad := head, tailPad := tail } s.takeMem s

/-- R24 steps 3 to 6: the segment's own fields, and its span against its take. -/
def segmentInRange (m : TakeMemory) (g : Segment) (t : Take) : Bool :=
  decide (1 ≤ g.length) && decide (g.fadeIn ≤ 48000) && decide (g.fadeOut ≤ 48000) && decide (g.gap ≤ 240000) &&
  decide (g.fadeIn + g.fadeOut ≤ g.length) && decide (g.start + g.length ≤ t.sampleLength.getD 0) &&
  m.spanOwned g.take g.start g.length

/-- R24: the checks of a segment, `segments` being the list as it would stand after the edit; then the edit. -/
def withSegment (th : Nat) (g : Segment) (segments : List Segment) (k : Chapter) (s : State)
    (edit : Answer × State) : Answer × State :=
  withTake th g.take s fun t =>
    if t.state = .recording then refuse .badState s
    else if segmentInRange s.takeMem g t = false ∨ 268435456 < timelineLength k.headPad segments k.tailPad then refuse .range s
    else edit

/-- R25: INSERT-SEGMENT. -/
def insertSegment (th index position : Nat) (g : Segment) (s : State) : Answer × State :=
  withOpenTitle th s fun _ =>
    withChapter th index s fun k =>
      if k.segments.length < position then refuse .range s
      else if 32 ≤ k.segments.length then refuse .full s
      else
        withSegment th g (k.segments.insertIdx position g) k s
          (takeEdit { title := th, index := index } { k with segments := k.segments.insertIdx position g }
            (s.takeMem.raise (s.takeMem.segmentGroups g)) s)

/-- R26: REPLACE-SEGMENT. The new segment's counts rise before the old one's fall, so that a group of both keeps its count. -/
def replaceSegment (th index position : Nat) (g : Segment) (s : State) : Answer × State :=
  withOpenTitle th s fun _ =>
    withChapter th index s fun k =>
      match k.segments[position]? with
      | none => refuse .range s
      | some old =>
        withSegment th g (k.segments.set position g) k s
          (takeEdit { title := th, index := index } { k with segments := k.segments.set position g }
            ((s.takeMem.raise (s.takeMem.segmentGroups g)).lower (s.takeMem.segmentGroups old)) s)

/-- A chapter that waits for a lane or is in one. -/
def ChapterState.busy : ChapterState → Bool
  | .queued => true
  | st => st.inLane

/-- R27: REMOVE-SEGMENT. -/
def removeSegment (th index position : Nat) (s : State) : Answer × State :=
  withOpenTitle th s fun _ =>
    withChapter th index s fun k =>
      match k.segments[position]? with
      | none => refuse .range s
      | some old =>
        if k.segments.length = 1 ∧ k.state.busy = true then refuse .badState s
        else
          takeEdit { title := th, index := index } { k with segments := k.segments.eraseIdx position }
            (s.takeMem.lower (s.takeMem.segmentGroups old)) s

/-- R37 step 1: the chapter leaves its FIFO or its lane, and the count falls by one; otherwise nothing. -/
def State.unqueue (s : State) (c : ChapterId) (k : Chapter) (way : EndWay) : State :=
  if k.state.busy then
    let s1 := if k.state = .queued then { s with queue := s.queue.remove (fun x => decide (x = c)) } else s.endRender c way
    { s1 with queue := s1.queue.fewer 1 }
  else s

/-- R37 steps 2 to 5: the chapter's references, published pages, notices and record go. -/
def State.eraseChapter (s : State) (c : ChapterId) (k : Chapter) : State :=
  { s with
    takeMem := s.takeMem.lower (k.segments.flatMap s.takeMem.segmentGroups),
    rendMem := { s.rendMem.free (s.rendMem.setPages c) with sets := Tab.drop s.rendMem.sets c.key },
    ports := s.ports.notify (fun l => l.removeNaming (fun x => decide (x = c))),
    chapters := Tab.drop s.chapters c.key }

/-- R36: DELETE-CHAPTER. The pages of its reply are those that it returns to the pool: the render's and the published set's. -/
def deleteChapter (th index : Nat) (s : State) : Answer × State :=
  withOpenTitle th s fun _ =>
    withChapter th index s fun k =>
      if s.held { title := th, index := index } then refuse .locked s
      else
        let s' := (s.unqueue { title := th, index := index } k .deleted).eraseChapter { title := th, index := index } k
        accept (le 1 k.state.code ++ (le 1 k.segments.length ++ le 4 (s'.rendMem.pool.length - s.rendMem.pool.length))) s'

/-- The place of a chapter in its FIFO, counted from 0 at the head. -/
def State.fifoPlace (s : State) (c : ChapterId) (p : Priority) : Nat := (s.queue.fifo p).idxOf c

/-- R38: the images of the published set, each one's rendition index and byte count. DESIGN CHOICE (assumption 20): for a chapter
without a published set the list is a count of 0, without presence byte. -/
def State.imageList (s : State) (c : ChapterId) : List Byte :=
  match Tab.look s.rendMem.sets c.key with
  | none => le 1 0
  | some p => le 1 p.images.length ++ p.images.flatMap (fun i => le 1 i.rendition ++ le 4 i.byteCount)

/-- The results of CHAPTER-INFO for a defined chapter (R38). -/
def chapterResults (s : State) (c : ChapterId) (k : Chapter) : List Byte :=
  le 1 k.state.code ++
  optional 1 (if k.state.busy then some (le 1 k.priority.code) else none) ++
  optional 1 (if k.state.inLane then (s.laneOf c).map (fun i => le 1 i.val) else none) ++
  optional 1 (if k.state = .queued then some (le 1 (s.fifoPlace c k.priority)) else none) ++
  le 4 k.headPad ++ le 4 k.tailPad ++ le 4 k.length ++ le 4 (blockCount k.length) ++
  le 1 k.segments.length ++ k.segments.flatMap segmentBytes ++
  le 1 (yesNo k.published) ++ le 2 k.serial ++ le 1 (yesNo k.stale) ++ s.imageList c

/-- R38: CHAPTER-INFO. -/
def chapterInfo (th index : Nat) (s : State) : Answer × State :=
  withTitle th s fun _ =>
    if 127 < index then refuse .range s
    else
      match s.chapter? { title := th, index := index } with
      | none => accept (le 1 0xFF) s
      | some k => accept (chapterResults s { title := th, index := index } k) s

end Sys2Proof.Machine
end

