-- ==== Sys2Proof/Machine/Discards.lean ====
section
/-! DEFINITION. The discard sequence (04_discards_and_group_references.md). The port returns the sequence to NONE after a
refusal (R72, Machine/LinkPorts.lean). -/

namespace Sys2Proof.Machine

/-- R67: DISCARD-FIRST. -/
def discardFirst (p : Port) (th take index : Nat) (s : State) : Answer × State :=
  withTitle th s fun _ =>
    withTake th take s fun t =>
      match t.groups[index]? with
      | none => refuse .range s
      | some e =>
        accept (le 2 take ++ (le 2 index ++ entryBytes s.takeMem e)) (s.setSequence p (.firstSet take index))

/-- The indexes of a run, from the first to the last. -/
def runIndexes (first last : Nat) : List Nat := List.range' first (last + 1 - first)

/-- What an entry of a run is when it is judged (R70). -/
inductive Finding where
  | hole | referenced | current | discarded
  deriving DecidableEq, Repr

/-- R70: the finding on index `i` of a take. -/
def TakeMemory.judge (m : TakeMemory) (t : Take) (i : Nat) : Finding :=
  match (t.groups[i]?).join with
  | none => .hole
  | some g => if 0 < (m.group g).refs then .referenced else if t.isCurrent i then .current else .discarded

/-- R68: the results of a taken DISCARD-LAST. A current group with a nonzero count would be counted in both numbers. DESIGN CHOICE
(assumption 19): R68 states no range of the three numbers, and each has 2 bytes. -/
def runResults (m : TakeMemory) (t : Take) (take first last : Nat) : List Byte :=
  le 2 take ++ (le 2 first ++ (le 2 last ++
    (le 2 ((runIndexes first last).countP (fun i => decide (m.judge t i = .hole))) ++
      (le 2 ((runIndexes first last).countP (fun i => decide (m.judge t i = .referenced))) ++
        le 2 ((runIndexes first last).countP (fun i => ((t.groups[i]?).join).isSome && t.isCurrent i))))))

/-- R68: DISCARD-LAST. -/
def discardLast (p : Port) (th take index : Nat) (s : State) : Answer × State :=
  withTitle th s fun _ =>
    match (s.port p).sequence with
    | .none => refuse .sequence s
    | .bothSet _ _ _ => refuse .sequence s
    | .firstSet marked first =>
      withTake th take s fun t =>
        if take ≠ marked then refuse .sequence s
        else if index < first then refuse .sequence s
        else if t.groups.length ≤ index then refuse .range s
        else accept (runResults s.takeMem t take first index) (s.setSequence p (.bothSet take first index))

/-- R70: one index of a taken commit: a discarded group's entry becomes a hole and the group leaves the take. -/
def TakeMemory.discardAt (take : Nat) (m : TakeMemory) (i : Nat) : TakeMemory :=
  match Tab.look m.takes take with
  | none => m
  | some t =>
    match m.judge t i, (t.groups[i]?).join with
    | .discarded, some g => (m.release g).setTake take { t with groups := t.groups.set i none }
    | _, _ => m

/-- R70: the run of a taken commit, in ascending order. -/
def TakeMemory.discardRun (m : TakeMemory) (take first last : Nat) : TakeMemory :=
  (runIndexes first last).foldl (TakeMemory.discardAt take) m

/-- The number of indexes of the run with a finding. Discarding one entry changes the finding on no other. -/
def findings (m : TakeMemory) (t : Take) (first last : Nat) (v : Finding) : Nat :=
  (runIndexes first last).countP (fun i => decide (m.judge t i = v))

/-- The discarded groups of the run that carry the faulted mark. -/
def discardedBad (m : TakeMemory) (t : Take) (first last : Nat) : Nat :=
  (runIndexes first last).countP (fun i =>
    decide (m.judge t i = .discarded) && ((t.groups[i]?).join).any (fun g => (m.group g).faulted))

/-- R71: after the run, a CLOSED or FAULTED take that owns no group leaves the take table. -/
def TakeMemory.emptied (m : TakeMemory) (take : Nat) : Bool :=
  match Tab.look m.takes take with
  | none => false
  | some t => decide (t.state ≠ .recording) && t.owned.isEmpty

/-- R70, R71: the part after a taken commit on a run of a take. -/
def State.commitDiscard (s : State) (p : Port) (take first last : Nat) : State :=
  let s1 := (s.setTakeMem (s.takeMem.discardRun take first last)).setSequence p .none
  if s1.takeMem.emptied take then s1.dropTake take else s1

/-- R71: the results of a taken DISCARD-COMMIT. DESIGN CHOICE (assumption 19): R71 states no range of the five counts, and each has
2 bytes, that of the groups skipped as current too. -/
def commitResults (m : TakeMemory) (t : Take) (first last : Nat) : List Byte :=
  le 2 (findings m t first last .discarded) ++ (le 2 (findings m t first last .referenced) ++
    (le 2 (findings m t first last .current) ++ (le 2 (findings m t first last .hole) ++ le 2 (discardedBad m t first last))))

/-- R71: the flags of a taken DISCARD-COMMIT. -/
def commitFlags (m : TakeMemory) (t : Take) (take first last : Nat) : ReplyFlags :=
  { skipped := decide (0 < findings m t first last .referenced + findings m t first last .current),
    freed := (m.discardRun take first last).emptied take }

/-- R69: DISCARD-COMMIT. -/
def discardCommit (p : Port) (th : Nat) (s : State) : Answer × State :=
  withTitle th s fun t =>
    if t.state ≠ .opened then refuse .locked s
    else
      match (s.port p).sequence with
      | .none => refuse .sequence s
      | .firstSet _ _ => refuse .sequence s
      | .bothSet take first last =>
        withTake th take s fun k =>
          accept (commitResults s.takeMem k first last) (s.commitDiscard p take first last)
            (commitFlags s.takeMem k take first last)

end Sys2Proof.Machine
end

