-- ==== Sys2Proof/Machine/NoticeRequests.lean ====
section
/-! DEFINITION. POP-NOTICE and SET-NOTICE-MASK (10_notice_lists_and_attention.md). -/

namespace Sys2Proof.Machine

/-- The bytes of a DONE entry (R169). -/
def DoneEntry.bytes (e : DoneEntry) : List Byte := chapterBytes e.chapter ++ le 2 e.serial

/-- The bytes of a FAILED entry (R169). -/
def FailedEntry.bytes (e : FailedEntry) : List Byte := chapterBytes e.chapter ++ le 1 e.cause.code

/-- The bytes of a STARVED entry (R169). -/
def StarvedEntry.bytes (e : StarvedEntry) : List Byte := chapterBytes e.chapter ++ (le 1 e.rendition ++ le 4 e.frame)

/-- The bytes of a RESTORED entry (R169). -/
def RestoredEntry.bytes (e : RestoredEntry) : List Byte :=
  chapterBytes e.chapter ++ (le 1 e.rendition ++ (le 4 e.frame ++ le 1 (yesNo e.ended)))

/-- The bytes of a HOLD_EXPIRED entry (R169). -/
def ExpiredEntry.bytes (e : ExpiredEntry) : List Byte :=
  le 1 e.slot ++ (le 1 e.generation ++ (chapterBytes e.chapter ++ le 1 e.rendition))

/-- R175: the head entry of the list that a code names, as bytes; `none` for an empty list. -/
def NoticeLists.head? (l : NoticeLists) : Nat → Option (List Byte)
  | 0 => l.done.head?.map DoneEntry.bytes
  | 1 => l.failed.head?.map FailedEntry.bytes
  | 2 => l.starved.head?.map StarvedEntry.bytes
  | 3 => l.restored.head?.map RestoredEntry.bytes
  | 4 => l.expired.head?.map ExpiredEntry.bytes
  | _ => none

/-- R175: the lists without the head entry of the list that a code names. -/
def NoticeLists.pop (l : NoticeLists) : Nat → NoticeLists
  | 0 => { l with done := l.done.tail }
  | 1 => { l with failed := l.failed.tail }
  | 2 => { l with starved := l.starved.tail }
  | 3 => { l with restored := l.restored.tail }
  | 4 => { l with expired := l.expired.tail }
  | _ => l

/-- R175: POP-NOTICE. -/
def popNotice (p : Port) (code : Nat) (s : State) : Answer × State :=
  if 4 < code then refuse .range s
  else
    match (s.port p).lists.head? code with
    | none => accept (s.port p).lists.counts s { empty := true }
    | some entry =>
      accept (le 1 code ++ (entry ++ ((s.port p).lists.pop code).counts))
        (s.changePort p (fun r => { r with lists := r.lists.pop code }))

/-- The mask that a set of list codes gives (R176). -/
def maskOf (lists : Byte) : NoticeMask :=
  { done := lists.getLsbD 0, failed := lists.getLsbD 1, starved := lists.getLsbD 2, restored := lists.getLsbD 3,
    expired := lists.getLsbD 4 }

/-- R176: SET-NOTICE-MASK. -/
def setNoticeMask (p : Port) (lists : Byte) (s : State) : Answer × State :=
  if 32 ≤ lists.toNat then refuse .range s
  else
    accept (le 1 (maskOf lists).byte ++ (s.port p).lists.counts) (s.changePort p (fun r => { r with mask := maskOf lists }))

end Sys2Proof.Machine
end

