-- ==== Sys2Proof/Machine/Reads.lean ====
section
/-! DEFINITION. The hold limit, the holds and the reads (09_rendition_memory_publication_and_read_holds.md). -/

namespace Sys2Proof.Machine

/-- R155: SET-HOLD-LIMIT. -/
def setHoldLimit (seconds : Int) (s : State) : Answer × State :=
  accept (le 1 (clampTo 1 60 seconds).toNat)
    { s with holdTable := { s.holdTable with limit := (clampTo 1 60 seconds).toNat } }
    { clamped := decide (clampTo 1 60 seconds ≠ seconds) }

/-- R157: the lowest-numbered free slot. -/
def HoldTable.freeSlot (h : HoldTable) : Option Nat := (List.range' 1 16).find? (fun i => (Tab.look h.holds i).isNone)

/-- R157: the generation a slot has when it is taken next. -/
def HoldTable.nextGeneration (h : HoldTable) (slot : Nat) : Nat := (h.generation slot + 1) % 256

/-- R157: a hold takes a slot. -/
def HoldTable.open_ (h : HoldTable) (slot : Nat) (k : Hold) : HoldTable :=
  { h with gens := h.gens.set (slot - 1) (h.nextGeneration slot), holds := Tab.put h.holds slot k }

/-- R157: a hold as OPEN-READ makes it; its timer starts at the hold limit, in steps of 10 ms. -/
def newHold (p : Port) (c : ChapterId) (rendition serial limit : Nat) : Hold :=
  { owner := p, chapter := c, rendition := rendition, serial := serial, remaining := limit * 100, read := none }

/-- R156: OPEN-READ. -/
def openRead (p : Port) (th index rendition : Nat) (s : State) : Answer × State :=
  withTitle th s fun t =>
    withChapter th index s fun k =>
      if 3 < rendition then refuse .range s
      else if k.published = false then refuse .badState s
      else
        match Tab.look s.rendMem.sets (ChapterId.key ⟨th, index⟩) with
        | none => refuse .badState s
        | some set =>
          match set.image? rendition with
          | none => refuse .range s
          | some image =>
            if t.profiles.length ≤ rendition then refuse .range s
            else if k.state = .commitWait then refuse .busy s
            else if 16 ≤ s.holdTable.holds.length ∨ 8 ≤ (s.holdsOf p).length then refuse .full s
            else
              match s.holdTable.freeSlot with
              | none => refuse .full s
              | some slot =>
                accept
                  (le 1 slot ++ (le 1 (s.holdTable.nextGeneration slot) ++ (le 4 image.byteCount ++ (le 2 k.serial ++
                    le 1 set.images.length))))
                  { s with holdTable := s.holdTable.open_ slot (newHold p ⟨th, index⟩ rendition k.serial s.holdTable.limit) }
                  { stale := k.stale }

/-- R158: the hold that a handle resolves to, for a port and a title. -/
def withHold (p : Port) (th slot generation : Nat) (s : State) (k : Hold → Answer × State) : Answer × State :=
  if slot < 1 ∨ 16 < slot then refuse .badHandle s
  else
    match Tab.look s.holdTable.holds slot with
    | none => refuse .tooLate s
    | some h =>
      if s.holdTable.generation slot ≠ generation then refuse .tooLate s
      else if h.owner ≠ p ∨ h.chapter.title ≠ th then refuse .badHandle s
      else k h

/-- The image that a hold names. -/
def State.heldImage (s : State) (h : Hold) : Option Image :=
  match Tab.look s.rendMem.sets h.chapter.key with
  | none => none
  | some set => set.image? h.rendition

/-- The byte count of the image that a hold names. -/
def State.heldSize (s : State) (h : Hold) : Nat :=
  match s.heldImage h with
  | none => 0
  | some i => i.byteCount

/-- The chapter's stale flag. -/
def State.isStale (s : State) (c : ChapterId) : Bool :=
  match s.chapter? c with
  | none => false
  | some k => k.stale

/-- R159: the hold of a read that is taken. -/
def Hold.reading (h : Hold) (limit offset length size : Nat) : Hold :=
  { h with remaining := limit * 100, read := some (offset, min length (size - offset)) }

/-- Replace the hold of a slot. -/
def State.setHold (s : State) (slot : Nat) (h : Hold) : State :=
  { s with holdTable := { s.holdTable with holds := Tab.put s.holdTable.holds slot h } }

/-- R159: READ-RANGE. -/
def readRange (p : Port) (th slot generation offset length : Nat) (s : State) : Answer × State :=
  withTitle th s fun _ =>
    withHold p th slot generation s fun h =>
      if length = 0 ∨ 4096 < length then refuse .range s
      else if s.heldSize h ≤ offset then refuse .range s
      else
        (.started (.fetch slot (s.isStale h.chapter)),
          s.setHold slot (h.reading s.holdTable.limit offset length (s.heldSize h)))

/-- R161: CLOSE-READ. -/
def closeRead (p : Port) (th slot generation : Nat) (s : State) : Answer × State :=
  withTitle th s fun _ => withHold p th slot generation s fun _ => accept [] (s.endHold slot)

/-! ### Fetches, the hold clock and expiry -/

/-- R160: the bytes that a fetch through a hold returns. -/
def State.fetched (s : State) (h : Hold) : List Byte :=
  match s.heldImage h, h.read with
  | some i, some (offset, length) => (List.range length).map (fun k => readImage s.rendMem.mem i.pages (offset + k))
  | _, _ => []

/-- R160: the reply to a READ-RANGE whose fetch has completed. -/
def State.fetchReply (s : State) (slot : Nat) (stale : Bool) : Result :=
  match Tab.look s.holdTable.holds slot with
  | none => { status := .ok, flags := { stale := stale } }
  | some h =>
    { status := .ok, flags := { stale := stale },
      results := le 2 (s.fetched h).length ++ (le 2 h.serial ++ s.fetched h) }

/-- R160: the read in flight of a slot becomes absent. -/
def State.endFetch (s : State) (slot : Nat) : State :=
  { s with holdTable := { s.holdTable with
      holds := Tab.change s.holdTable.holds slot (fun h => { h with read := none }) } }

/-- R163: one step of the hold clock: every hold with no read in flight counts down by one. -/
def HoldTable.clockStep (h : HoldTable) : HoldTable :=
  { h with holds := h.holds.map (fun e => if e.2.read.isNone then (e.1, { e.2 with remaining := e.2.remaining - 1 }) else e) }

/-- R163: the hold that expires next: of those whose remaining time is 0 and that have no read in flight, the one in the lowest
slot. -/
def HoldTable.due (h : HoldTable) : Option (Nat × Hold) :=
  h.holds.find? (fun e => decide (e.2.remaining = 0) && e.2.read.isNone)

/-- R163: a hold expires: the owner's HOLD_EXPIRED entry, then the end of the hold with the commit it may release. -/
def State.expireHold (s : State) : State :=
  match s.holdTable.due with
  | none => s
  | some (slot, h) =>
    (s.changePort h.owner (fun r =>
      { r with lists := r.lists.postExpired slot (s.holdTable.generation slot) h.chapter h.rendition })).endHold slot

/-- HOLD_CLOCK_STEP (R163). -/
def execHoldClockStep (s : State) : Host.Outcome State Fault Refusal :=
  event (fun s => { s with holdTable := s.holdTable.clockStep }) s

/-- HOLD_EXPIRY (R163). With no hold at 0 there is none to end. -/
def execHoldExpiry (s : State) : Host.Outcome State Fault Refusal := event State.expireHold s

end Sys2Proof.Machine
end

