-- ==== Sys2Proof/Machine/RenderQueue.lean ====
section
/-! DEFINITION. The render requests and LANE-INFO (05_render_queue_lanes_and_the_slot_wheel.md). -/

namespace Sys2Proof.Machine

/-- R78: the part after a taken QUEUE-RENDER. -/
def State.enqueue (s : State) (c : ChapterId) (k : Chapter) (p : Priority) : State :=
  { s.setChapter c { k with priority := p, state := .queued } with
    queue := { s.queue.append p c with count := s.queue.count + 1 } }

/-- R78: QUEUE-RENDER. -/
def queueRender (th index priority : Nat) (s : State) : Answer × State :=
  withTitle th s fun t =>
    if t.state = .final then refuse .locked s
    else
      withChapter th index s fun k =>
        match Priority.ofCode? priority with
        | none => refuse .range s
        | some p =>
          if k.state.busy then refuse .badState s
          else if k.segments = [] then refuse .badState s
          else if 64 ≤ s.queue.count then refuse .full s
          else
            accept (le 1 p.code ++ (le 1 (s.queue.fifo p).length ++ le 1 (s.queue.count + 1)))
              (s.enqueue { title := th, index := index } k p)

/-- R34, R79: the part after a taken CANCEL-RENDER. -/
def State.cancel (s : State) (c : ChapterId) (k : Chapter) : State :=
  (s.unqueue c k .cancelled).setChapter c { k with state := k.afterCancel }

/-- R79: the results of a taken CANCEL-RENDER: the states before and after, and for a chapter taken from a lane the lane and the
pages returned. -/
def cancelResults (s s' : State) (c : ChapterId) (k : Chapter) : List Byte :=
  le 1 k.state.code ++ (le 1 k.afterCancel.code ++
    (optional 1 (if k.state.inLane then (s.laneOf c).map (fun i => le 1 i.val) else none) ++
      optional 4 (if k.state.inLane then some (le 4 (s'.rendMem.pool.length - s.rendMem.pool.length)) else none)))

/-- R79: CANCEL-RENDER. -/
def cancelRender (th index : Nat) (s : State) : Answer × State :=
  withTitle th s fun _ =>
    withChapter th index s fun k =>
      if k.state.busy = false then refuse .badState s
      else
        accept (cancelResults s (s.cancel { title := th, index := index } k) { title := th, index := index } k)
          (s.cancel { title := th, index := index } k)

/-- R86: SET-WHEEL. -/
def setWheel (e0 e1 e2 e3 : Nat) (s : State) : Answer × State :=
  match slotOfCode? e0, slotOfCode? e1, slotOfCode? e2, slotOfCode? e3 with
  | some a, some b, some c, some d =>
    accept (patternBytes s.wheel.pattern ++ patternBytes ⟨a, b, c, d⟩)
      { s with wheel := { s.wheel with pending := some ⟨a, b, c, d⟩ } }
  | _, _, _, _ => refuse .range s

/-- R87: the lanes with the enabled flags that a mask gives. -/
def enableLanes (lanes : Byte) (f : Four Lane) : Four Lane :=
  { e0 := { f.e0 with enabled := lanes.getLsbD 0 }, e1 := { f.e1 with enabled := lanes.getLsbD 1 },
    e2 := { f.e2 with enabled := lanes.getLsbD 2 }, e3 := { f.e3 with enabled := lanes.getLsbD 3 } }

/-- R87: SET-LANES. -/
def setLanes (lanes : Byte) (s : State) : Answer × State :=
  if 16 ≤ lanes.toNat then refuse .range s
  else
    accept (le 1 (enabledMask (enableLanes lanes s.lanes)) ++ s.lanes.toList.flatMap (fun l => le 1 l.state.code))
      { s with lanes := enableLanes lanes s.lanes }

/-- R95: running is 0, suspended 1, stalled 2; absent for a lane in neither MEASURE nor ENCODE. -/
def State.running (s : State) (i : Fin 4) : Option Nat :=
  match (s.lanes.get i).state with
  | .measure | .encode => some (if (s.lanes.get i).enabled = false then 1 else if s.wheel.names i then 0 else 2)
  | _ => none

/-- R95: one encoder of a lane. -/
def encoderBytes (e : Encoder) : List Byte :=
  le 1 e.rendition ++ le 2 e.credit ++ le 1 (yesNo e.starved) ++ le 4 e.starvedFrames ++ le 4 e.pages.length

/-- R95: the gain and the gain flags of a lane in ENCODE or COMMIT_WAIT, with the saturation count. -/
def Stage.gain? : Stage → Option (GainRecord × Nat)
  | .measure _ _ => none
  | .encode _ g n _ => some (g, n)
  | .commitWait g n _ => some (g, n)

/-- R93: the last end of a lane. -/
def lastEndBytes (e : LastEnd) : List Byte :=
  chapterBytes e.chapter ++ le 1 e.way.code ++ le 1 e.laneState.code ++ optional 1 (e.cause.map (fun c => le 1 c.code)) ++
    optional 2 (e.group.map (le 2)) ++ optional 4 (e.position.map (le 4)) ++ optional 2 (e.serial.map (le 2))

/-- R95: one lane. DESIGN CHOICE (assumption 18): the encoder list of a lane outside ENCODE and COMMIT_WAIT is a count of 0, without a
presence byte. -/
def State.laneBytes (s : State) (i : Fin 4) : List Byte :=
  le 1 (s.lanes.get i).state.code ++ le 1 (yesNo (s.dispatchable i)) ++ optional 1 ((s.running i).map (le 1)) ++
    optional 2 ((s.lanes.get i).render.map (fun r => chapterBytes r.chapter)) ++
    optional 1 ((s.lanes.get i).render.map (fun r => le 1 r.origin.code)) ++
    optional 4 ((s.lanes.get i).render.map (fun r => le 4 r.pass)) ++
    optional 4 ((s.lanes.get i).render.map (fun r => le 4 r.timeline.blocks)) ++
    optional 2 (((s.lanes.get i).render.bind (fun r => r.stage.gain?)).map (fun g => leI g.1.g)) ++
    optional 2 (((s.lanes.get i).render.bind (fun r => r.stage.gain?)).map (fun g => le 2 g.1.flagsWord)) ++
    optional 4 (((s.lanes.get i).render.bind (fun r => r.stage.gain?)).map (fun g => le 4 g.2)) ++
    (match (s.lanes.get i).render with
      | none => le 1 0
      | some r => le 1 r.stage.encoders.length ++ r.stage.encoders.flatMap encoderBytes) ++
    optional 17 ((s.lanes.get i).lastEnd.map lastEndBytes)

/-- R95: LANE-INFO. -/
def laneInfo (s : State) : Answer × State :=
  accept
    (le 1 s.queue.count ++ le 1 s.queue.rush.length ++ le 1 s.queue.normal.length ++ patternBytes s.wheel.pattern ++
      optional 4 (s.wheel.pending.map patternBytes) ++ le 1 (enabledMask s.lanes) ++
      fourIndexes.flatMap s.laneBytes) s

end Sys2Proof.Machine
end

