-- ==== Sys2Proof/Machine/Takes.lean ====
section
/-! DEFINITION. The take requests and the Erase Engine (03_take_memory.md). -/

namespace Sys2Proof.Machine

/-! ### Requests -/

/-- R51: a take at OPEN-TAKE, with its first group. -/
def newTake (th group : Nat) : Take :=
  { title := th, state := .recording, blocks := 0, tail := none, groups := [some group], inFlight := none }

/-- The lowest free take id. -/
def TakeMemory.freeId (m : TakeMemory) : Option Nat := (List.range' 1 1024).find? (fun i => (Tab.look m.takes i).isNone)

/-- R51: the take `id` of a title is opened with group `g`, the head of the clean pool. -/
def TakeMemory.open_ (m : TakeMemory) (th id g : Nat) : TakeMemory := (m.drawTo g id 0).setTake id (newTake th g)

/-- R51: OPEN-TAKE. -/
def openTake (th : Nat) (s : State) : Answer × State :=
  withTitle th s fun t =>
    if t.state ≠ .opened then refuse .locked s
    else
      match s.takeMem.freeId, s.takeMem.clean with
      | none, _ => refuse .full s
      | some _, [] => refuse .notReady s
      | some id, g :: _ => accept (le 2 id ++ le 2 g) (s.setTakeMem (s.takeMem.open_ th id g))

/-- R52 step 8: the block starts a new group. -/
def startsGroup (block : Nat) : Bool := decide (block ≠ 0) && decide (block % 256 = 0)

/-- R54: a write that starts a new group draws the head of the clean pool for it, as the take's new current group. -/
def TakeMemory.drawForBlock (m : TakeMemory) (take : Nat) (t : Take) (block : Nat) : TakeMemory × Take :=
  match startsGroup block, m.clean with
  | true, g :: _ => (m.drawTo g take t.groups.length, { t with groups := t.groups ++ [some g] })
  | _, _ => (m, t)

/-- R54: a write is taken. -/
def TakeMemory.startBlock (m : TakeMemory) (take : Nat) (t : Take) (block : Nat) : TakeMemory :=
  (m.drawForBlock take t block).1.setTake take { (m.drawForBlock take t block).2 with inFlight := some block }

/-- R52: WRITE-BLOCK. -/
def writeBlock (th take block : Nat) (data : List Byte) (crc : BitVec 16) (s : State) : Answer × State :=
  withTitle th s fun _ =>
    withTake th take s fun t =>
      if t.state ≠ .recording then refuse .badState s
      else if t.inFlight.isSome then refuse .busy s
      else if crc16 data ≠ crc then refuse .crcError s
      else if block ≠ t.blocks then (.reply { status := .seqMismatch, results := le 4 t.blocks }, s)
      else if t.blocks = 1048576 then refuse .full s
      else if startsGroup block = true ∧ s.takeMem.clean = [] then refuse .notReady s
      else (.started (.program take block data), s.setTakeMem (s.takeMem.startBlock take t block))

/-- R59, R60: CLOSE-TAKE. -/
def closeTake (th take tail : Nat) (s : State) : Answer × State :=
  withTitle th s fun _ =>
    withTake th take s fun t =>
      if t.state ≠ .recording then refuse .badState s
      else if t.inFlight.isSome then refuse .busy s
      else if tail < 1 ∨ 1024 < tail then refuse .range s
      else if t.blocks = 0 then
        accept (le 4 0) ((s.setTakeMem (s.takeMem.releaseAll t.owned)).dropTake take) { freed := true }
      else
        accept (le 4 t.blocks ++ (le 2 tail ++ le 4 ((t.blocks - 1) * 1024 + tail)))
          (s.setTakeMem (s.takeMem.setTake take { t with state := .closed, tail := some tail }))

/-- R61: the results of TAKE-INFO. -/
def takeResults (m : TakeMemory) (id first : Nat) (t : Take) : List Byte :=
  le 2 id ++ le 1 t.title ++ le 1 t.state.code ++ le 4 t.blocks ++ optional 2 (t.tail.map (le 2)) ++
    optional 4 (t.sampleLength.map (le 4)) ++ optional 4 (t.inFlight.map (le 4)) ++
    le 2 t.groups.length ++ le 2 (t.groups.countP (fun e => e.isNone)) ++
    le 2 ((t.groups.drop first).take 256).length ++ ((t.groups.drop first).take 256).flatMap (entryBytes m)

/-- R61: TAKE-INFO. -/
def takeInfo (th take first : Nat) (s : State) : Answer × State :=
  withTitle th s fun _ =>
    withTake th take s fun t =>
      if t.groups.length ≤ first then refuse .range s else accept (takeResults s.takeMem take first t) s

/-! ### The end of a block program -/

/-- R56: the block is counted, and its bytes are stored in its group. -/
def TakeMemory.blockDone (m : TakeMemory) (take : Nat) (t : Take) (block : Nat) (data : List Byte) : TakeMemory :=
  { m.setTake take { t with blocks := t.blocks + 1, inFlight := none } with
    mem := match m.blockGroup take block with
      | none => m.mem
      | some g => Memory.writeBytes m.mem (blockAddress g (block % 256)) data }

/-- R57: the take after a program fault that leaves its last group in its list. -/
def Take.faultedTake (t : Take) : Take := { t with state := .faulted, tail := some 1024, inFlight := none }

/-- R57: the group into which a take's next block is programmed, the last entry of its list. -/
def Take.current (t : Take) : Option Nat := t.groups.getLast?.join

/-- R57, R58: the program of `block` of a take fails, `g` being the current group. A fault on the first block of a group takes the
group out of the take; a fault on block 0 takes the take out of the table, with all that it owns, which is `g`. -/
def State.blockFailed (s : State) (take : Nat) (t : Take) (block g : Nat) : State :=
  let m := s.takeMem.setGroup g { s.takeMem.group g with faulted := true }
  if block = 0 then (s.setTakeMem (m.releaseAll t.owned)).dropTake take
  else if block % 256 = 0 then
    s.setTakeMem ((m.release g).setTake take { t.faultedTake with groups := t.groups.dropLast })
  else s.setTakeMem (m.setTake take t.faultedTake)

/-- R57, R58: the reply to a WRITE-BLOCK whose program failed (assumption 6). -/
def faultReply (blocks block g : Nat) : Result :=
  { status := .programFault, flags := { freed := decide (block = 0) },
    results := le 4 blocks ++ (le 1 TakeState.faulted.code ++ le 2 g) }

/-! ### The Erase Engine -/

/-- R44: the empty engine takes the head of a dirty list that is not empty. -/
def TakeMemory.eraseStart (m : TakeMemory) : TakeMemory :=
  match m.engine, m.dirty with
  | none, g :: rest => { m.setGroup g { m.group g with state := .erasing } with dirty := rest, engine := some g }
  | _, _ => m

/-- R48: the end of the erase of group 32,767 ends the scrub. -/
def TakeMemory.scrubAfter (m : TakeMemory) (g : Nat) : Bool := m.scrub && decide (g ≠ 32767)

/-- R44: the erase completes. The group's bytes are no longer listed (assumption 3). -/
def TakeMemory.eraseDone (m : TakeMemory) : TakeMemory :=
  match m.engine with
  | none => m
  | some g =>
    { m.setGroup g { m.group g with state := .clean } with
      clean := m.clean ++ [g], engine := none, scrub := m.scrubAfter g,
      mem := Memory.clear m.mem (blockAddress g 0) 786432 }

/-- R44: the erase fails. -/
def TakeMemory.eraseFailed (m : TakeMemory) : TakeMemory :=
  match m.engine with
  | none => m
  | some g =>
    { m.setGroup g { m.group g with state := .bad } with
      bad := insertBad g m.bad, engine := none, scrub := m.scrubAfter g }

/-- ERASE_START (R44). -/
def execEraseStart (s : State) : Host.Outcome State Fault Refusal := event (fun s => s.setTakeMem s.takeMem.eraseStart) s

/-- ERASE_COMPLETION (R44). -/
def execEraseCompletion (s : State) : Host.Outcome State Fault Refusal := event (fun s => s.setTakeMem s.takeMem.eraseDone) s

/-- ERASE_FAULT (R44). -/
def execEraseFault (s : State) : Host.Outcome State Fault Refusal := event (fun s => s.setTakeMem s.takeMem.eraseFailed) s

end Sys2Proof.Machine
end

