-- ==== Sys2Proof/Machine/Titles.lean ====
section
/-! DEFINITION. The title requests (01_titles.md). -/

namespace Sys2Proof.Machine

/-- R7: the default profile. -/
def defaultProfile : Profile := { bmin := 12, bsus := 170, bpeak := 340, cmax := 680, ts := 170, d := 170 }

/-- R1: the default loudness fields. -/
def defaultLoudness : Loudness := { target := -190, tolerance := 20, ceiling := -30, absGate := -600, silence := -550 }

/-- R1: a title at registration. -/
def newTitle (catalogue : Nat) : Title :=
  { state := .opened, catalogue := catalogue, loudness := defaultLoudness, roomTone := none, profiles := [defaultProfile] }

/-- The handle of the record that holds a catalogue number, the lowest if there were several. -/
def State.handleOf (s : State) (catalogue : Nat) : Option Nat :=
  [1, 2, 3, 4].find? (fun h => decide ((s.title? h).map (fun t => t.catalogue) = some catalogue))

/-- The lowest FREE handle. -/
def State.freeHandle (s : State) : Option Nat := [1, 2, 3, 4].find? (fun h => (s.title? h).isNone)

/-- R3: REGISTER-TITLE. -/
def registerTitle (catalogue : Nat) (s : State) : Answer × State :=
  if catalogue = 0 then refuse .range s
  else
    match s.handleOf catalogue with
    | some h =>
      accept (le 1 h ++ le 1 (match s.title? h with | none => 0 | some t => t.state.code)) s { existing := true }
    | none =>
      match s.freeHandle with
      | none => refuse .full s
      | some h => accept (le 1 h ++ le 1 TitleState.opened.code) (s.setTitle h (newTitle catalogue))

/-- R4: TITLE-INFO. -/
def titleInfo (th : Nat) (s : State) : Answer × State :=
  withTitle th s fun t =>
    accept
      (le 1 t.state.code ++ le 8 t.catalogue ++ loudnessBytes t.loudness ++
        le 1 t.profiles.length ++ t.profiles.flatMap profileBytes ++
        optional 10 (t.roomTone.map spanBytes) ++
        le 1 (s.titleChapters th).length ++
        le 1 ((s.titleChapters th).countP (fun e => decide (e.2.state = .queued))) ++
        le 1 ((s.titleChapters th).countP (fun e => e.2.state.inLane)) ++
        le 2 (s.titleTakes th).length ++
        le 2 ((s.titleTakes th).countP (fun e => decide (e.2.state = .recording)))) s

/-- R5: the checks of a title-level change; then its own, and the change marks the published chapters stale. `k` gives the
status and results of the request's own checks, and the state with the change applied. -/
def titleChange (th : Nat) (s : State) (k : Title → Answer × State) : Answer × State :=
  withTitle th s fun t =>
    if t.state ≠ .opened then refuse .locked s
    else if s.titleInLane th then refuse .busy s
    else k t

/-- R6: one field: kept when its mask bit is clear, clamped into its range when the request names it. -/
def namedField (mask : Byte) (bit : Nat) (lo hi given old : Int) : Int := if mask.getLsbD bit then clampTo lo hi given else old

/-- R6: the five fields after a SET-TITLE-PARAMS. -/
def appliedLoudness (mask : Byte) (given old : Loudness) : Loudness :=
  { target := namedField mask 0 (-300) (-120) given.target old.target,
    tolerance := namedField mask 1 0 100 given.tolerance old.tolerance,
    ceiling := namedField mask 2 (-100) 0 given.ceiling old.ceiling,
    absGate := namedField mask 3 (-900) (-300) given.absGate old.absGate,
    silence := namedField mask 4 (-900) (-200) given.silence old.silence }

/-- R6: at least one named value was changed by clamping. -/
def loudnessClamped (mask : Byte) (given old : Loudness) : Bool :=
  (mask.getLsbD 0 && decide ((appliedLoudness mask given old).target ≠ given.target)) ||
  (mask.getLsbD 1 && decide ((appliedLoudness mask given old).tolerance ≠ given.tolerance)) ||
  (mask.getLsbD 2 && decide ((appliedLoudness mask given old).ceiling ≠ given.ceiling)) ||
  (mask.getLsbD 3 && decide ((appliedLoudness mask given old).absGate ≠ given.absGate)) ||
  (mask.getLsbD 4 && decide ((appliedLoudness mask given old).silence ≠ given.silence))

/-- R6: SET-TITLE-PARAMS. -/
def setTitleParams (th : Nat) (mask : Byte) (values : Loudness) (s : State) : Answer × State :=
  titleChange th s fun t =>
    accept (loudnessBytes (appliedLoudness mask values t.loudness))
      ((s.setTitle th { t with loudness := appliedLoudness mask values t.loudness }).markStale th)
      { clamped := loudnessClamped mask values t.loudness }

/-- R7: every field of the profile is in its range. -/
def Profile.inRange (p : Profile) : Bool :=
  decide (8 ≤ p.bmin ∧ p.bmin ≤ 64) && decide (max p.bmin 16 ≤ p.bsus ∧ p.bsus ≤ 1024) &&
  decide (p.bsus ≤ p.bpeak ∧ p.bpeak ≤ 2048) && decide (p.cmax ≤ 65535) && decide (p.ts ≤ p.cmax) &&
  decide (1 ≤ p.d ∧ p.d ≤ 65535)

/-- R7: SET-PROFILE. -/
def setProfile (th index : Nat) (p : Profile) (s : State) : Answer × State :=
  titleChange th s fun t =>
    if t.profiles.length ≤ index ∨ Profile.inRange p = false then refuse .range s
    else accept (profileBytes p) ((s.setTitle th { t with profiles := t.profiles.set index p }).markStale th)

/-- R8: the profile list brought to `n` profiles. -/
def resizeProfiles (n : Nat) (ps : List Profile) : List Profile :=
  ps.take n ++ List.replicate (n - ps.length) defaultProfile

/-- R8: SET-PROFILE-COUNT. -/
def setProfileCount (th n : Nat) (s : State) : Answer × State :=
  titleChange th s fun t =>
    if n < 1 ∨ 4 < n then refuse .range s
    else accept (le 1 n) ((s.setTitle th { t with profiles := resizeProfiles n t.profiles }).markStale th)

/-- R9 step 3: the span's own checks against its take. -/
def toneInRange (m : TakeMemory) (take start length : Nat) (t : Take) : Bool :=
  decide (4800 ≤ length ∧ length ≤ 96000) && decide (start + length ≤ t.sampleLength.getD 0) && m.spanOwned take start length

/-- R9, R10: the room-tone span of a title replaced, with the counts of the groups of both spans. -/
def State.moveTone (s : State) (th : Nat) (t : Title) (r : Option RoomSpan) : State :=
  { s.setTitle th { t with roomTone := r } with
    takeMem := (s.takeMem.raise (s.takeMem.toneGroups r)).lower (s.takeMem.toneGroups t.roomTone) }

/-- R9: SET-ROOM-TONE. -/
def setRoomTone (th take start length : Nat) (s : State) : Answer × State :=
  titleChange th s fun t =>
    withTake th take s fun k =>
      if k.state = .recording then refuse .badState s
      else if toneInRange s.takeMem take start length k = false then refuse .range s
      else
        accept (spanBytes { take := take, start := start, length := length })
          ((s.moveTone th t (some { take := take, start := start, length := length })).markStale th)

/-- R10: CLEAR-ROOM-TONE. -/
def clearRoomTone (th : Nat) (s : State) : Answer × State :=
  titleChange th s fun t => accept [] ((s.moveTone th t none).markStale th)

/-- R12: HOLD-TITLE. DESIGN CHOICE (assumption 16): in HELD, where nothing changes, the reply gives the state as well. -/
def holdTitle (th : Nat) (s : State) : Answer × State :=
  withTitle th s fun t =>
    match t.state with
    | .opened => accept (le 1 TitleState.held.code) (s.setTitle th { t with state := .held })
    | .held => accept (le 1 TitleState.held.code) s
    | .final => refuse .locked s

/-- R13: RELEASE-TITLE. DESIGN CHOICE (assumption 16): in OPEN, where nothing changes, the reply gives the state as well. -/
def releaseTitle (th : Nat) (s : State) : Answer × State :=
  withTitle th s fun t =>
    match t.state with
    | .held => accept (le 1 TitleState.opened.code) (s.setTitle th { t with state := .opened })
    | .opened => accept (le 1 TitleState.opened.code) s
    | .final => refuse .locked s

/-- R14: the lowest defined chapter of the title that is not DONE, or is stale. -/
def State.offending (s : State) (th : Nat) : Option Nat :=
  ((s.titleChapters th).find? (fun e => decide (e.2.state ≠ .done) || e.2.stale)).map (fun e => e.1 % 128)

/-- A refused FINALIZE-TITLE gives the offending index (R14). -/
def refuseFinal (index : Nat) (s : State) : Answer × State := (.reply { status := .badState, results := le 1 index }, s)

/-- R14: FINALIZE-TITLE. DESIGN CHOICE (assumption 16): in FINAL, where nothing changes, the reply gives the state as well. -/
def finalizeTitle (th : Nat) (s : State) : Answer × State :=
  withTitle th s fun t =>
    if t.state = .final then accept (le 1 TitleState.final.code) s
    else if (s.titleChapters th).isEmpty then refuseFinal 255 s
    else
      match s.offending th with
      | some i => refuseFinal i s
      | none =>
        if s.titleRecording th then refuseFinal 255 s
        else accept (le 1 TitleState.final.code) (s.setTitle th { t with state := .final })

/-! ### Retiring -/

/-- The chapter belongs to the title. -/
def ofTitle (th : Nat) (c : ChapterId) : Bool := decide (c.title = th)

/-- How many entries of the FIFOs belong to the title. -/
def RenderQueue.entriesOf (q : RenderQueue) (th : Nat) : Nat := q.rush.countP (ofTitle th) + q.normal.countP (ofTitle th)

/-- The groups that every segment of the title's chapters and its room-tone span touch, once for each (R16 step 2). -/
def State.titleGroups (s : State) (th : Nat) (t : Title) : List Nat :=
  (s.titleChapters th).flatMap (fun e => e.2.segments.flatMap s.takeMem.segmentGroups) ++ s.takeMem.toneGroups t.roomTone

/-- The pages of every published image of the title, in the order of R16 step 3. -/
def State.titlePages (s : State) (th : Nat) : List Nat :=
  (s.rendMem.sets.filter (fun e => decide (e.1 / 128 = th))).flatMap (fun e => e.2.pages)

/-- R16: the title's queue entries, references, pages and chapter records go. -/
def State.retirePlan (s : State) (th : Nat) (t : Title) : State :=
  { s with
    queue := { s.queue.remove (ofTitle th) with count := s.queue.count - s.queue.entriesOf th },
    takeMem := s.takeMem.lower (s.titleGroups th t),
    rendMem := { s.rendMem.free (s.titlePages th) with
      sets := s.rendMem.sets.filter (fun e => decide (e.1 / 128 ≠ th)) },
    chapters := s.chapters.filter (fun e => decide (e.1 / 128 ≠ th)) }

/-- R17 step 5: one take leaves the take table, and its owned groups leave it in list order. -/
def State.retireTake (s : State) (e : Nat × Take) : State :=
  (s.setTakeMem (s.takeMem.releaseAll e.2.owned)).dropTake e.1

/-- R17 steps 5 to 7: the title's takes, the notices that name it, and the discard sequences that mark its takes go. -/
def State.retireTakes (s : State) (th : Nat) : State :=
  ((s.titleTakes th).foldl State.retireTake s).notify (fun l => l.removeNaming (ofTitle th))

/-- R17 step 8: the record becomes FREE. -/
def State.freeTitle (s : State) (th : Nat) : State := { s with titles := Tab.drop s.titles th }

/-- R16, R17: a taken RETIRE-TITLE. -/
def State.retire (s : State) (th : Nat) (t : Title) : State := ((s.retirePlan th t).retireTakes th).freeTitle th

/-- The five counts of a taken RETIRE-TITLE (R17): chapters, takes, pages, groups to the dirty list, groups to the bad set. -/
def retireCounts (th : Nat) (s s' : State) : List Byte :=
  le 1 (s.titleChapters th).length ++ (le 2 (s.titleTakes th).length ++ (le 4 (s.titlePages th).length ++
    (le 2 (s'.takeMem.dirty.length - s.takeMem.dirty.length) ++ le 2 (s'.takeMem.bad.length - s.takeMem.bad.length))))

/-- R15: RETIRE-TITLE. -/
def retireTitle (th : Nat) (s : State) : Answer × State :=
  withTitle th s fun t =>
    if s.titleInLane th || s.titleRecording th then refuse .busy s
    else if s.holdTable.holds.any (fun e => decide (e.2.chapter.title = th)) then refuse .locked s
    else accept (retireCounts th s (s.retire th t)) (s.retire th t)

end Sys2Proof.Machine
end

