-- ==== Sys2Proof/Machine/LinkPorts.lean ====
section
/-! DEFINITION. The link ports (11_link_ports.md): transactions, the taking of a request, the end of an operation, port reset,
device reset and DEVICE-STATUS. -/

namespace Sys2Proof.Machine

/-! ### Port reset -/

/-- The slots of the holds that a port reset ends at once: the port's own with no read in flight, ascending (R168). -/
def State.endableSlots (s : State) (p : Port) : List Nat :=
  ((s.holdsOf p).filter (fun e => e.2.read.isNone)).map (fun e => e.1)

/-- R189 steps 1 to 3: the lists and the mask of the port are emptied, its holds end in ascending slot number, and its discard
sequence returns to NONE. -/
def State.resetPort (s : State) (p : Port) : State :=
  let s1 := s.changePort p (fun r =>
    { r with lists := NoticeLists.empty, mask := NoticeMask.empty, sequence := .none })
  (s1.endableSlots p).foldl State.endHold s1

/-- R189: PORT-RESET. -/
def portReset (p : Port) (s : State) : Answer × State := accept (le 1 (s.endableSlots p).length) (s.resetPort p)

/-! ### DEVICE-STATUS -/

/-- The number of groups in a state of the group map. -/
def TakeMemory.countIn (m : TakeMemory) (st : GroupState) : Nat := m.groups.countP (fun g => decide (g.state = st))

/-- R192: DEVICE-STATUS. -/
def deviceStatus (s : State) : Answer × State :=
  accept
    (le 2 0x7240 ++ le 1 (causeCode s.cause) ++ le 1 s.ports.a.role.code ++ le 1 s.ports.b.role.code ++
      le 1 s.ports.c.role.code ++ le 2 (s.takeMem.countIn .clean) ++ le 2 (s.takeMem.countIn .dirty) ++
      le 1 (s.takeMem.countIn .erasing) ++ le 2 (s.takeMem.countIn .owned) ++ le 2 (s.takeMem.countIn .bad) ++
      le 1 (yesNo s.takeMem.scrub) ++ le 2 s.takeMem.takes.length ++ le 4 s.rendMem.pool.length ++ le 1 s.queue.count ++
      le 1 s.holdTable.holds.length ++ le 1 (s.holdsOf .a).length ++ le 1 (s.holdsOf .b).length ++
      le 1 (s.holdsOf .c).length ++ le 1 s.titles.length) s

/-! ### Taking a request -/

/-- The block that owns a request's state checks and executes it (R185 step 4). -/
def handle (p : Port) (r : Request) (s : State) : Answer × State :=
  match r with
  | .openTake th => openTake th s
  | .writeBlock th take block data crc => writeBlock th take block data crc s
  | .closeTake th take tail => closeTake th take tail s
  | .discardFirst th take index => discardFirst p th take index s
  | .discardLast th take index => discardLast p th take index s
  | .discardCommit th => discardCommit p th s
  | .registerTitle catalogue => registerTitle catalogue s
  | .setTitleParams th mask values => setTitleParams th mask values s
  | .setProfile th index profile => setProfile th index profile s
  | .setProfileCount th count => setProfileCount th count s
  | .setRoomTone th take start length => setRoomTone th take start length s
  | .clearRoomTone th => clearRoomTone th s
  | .holdTitle th => holdTitle th s
  | .releaseTitle th => releaseTitle th s
  | .finalizeTitle th => finalizeTitle th s
  | .retireTitle th => retireTitle th s
  | .defineChapter th chapter => defineChapter th chapter s
  | .deleteChapter th chapter => deleteChapter th chapter s
  | .setChapterPads th chapter head tail => setChapterPads th chapter head tail s
  | .insertSegment th chapter position segment => insertSegment th chapter position segment s
  | .replaceSegment th chapter position segment => replaceSegment th chapter position segment s
  | .removeSegment th chapter position => removeSegment th chapter position s
  | .queueRender th chapter priority => queueRender th chapter priority s
  | .cancelRender th chapter => cancelRender th chapter s
  | .setWheel e0 e1 e2 e3 => setWheel e0 e1 e2 e3 s
  | .setLanes lanes => setLanes lanes s
  | .setHoldLimit seconds => setHoldLimit seconds s
  | .openRead th chapter rendition => openRead p th chapter rendition s
  | .readRange th slot generation offset length => readRange p th slot generation offset length s
  | .closeRead th slot generation => closeRead p th slot generation s
  | .titleInfo th => titleInfo th s
  | .chapterInfo th chapter => chapterInfo th chapter s
  | .takeInfo th take first => takeInfo th take first s
  | .laneInfo => laneInfo s
  | .popNotice list => popNotice p list s
  | .setNoticeMask lists => setNoticeMask p lists s
  | .deviceStatus => deviceStatus s
  | .portReset => portReset p s

/-- R186: the port goes to REPLY_READY with a reply in its store. -/
def State.answer (s : State) (p : Port) (tag : Byte) (discardReset : Bool) (r : Result) : State :=
  s.changePort p (fun q =>
    { q with
      state := .replyReady,
      reply := some { status := r.status, tag := tag, flags := { r.flags with discardReset := discardReset },
                      results := r.results } })

/-- R186: the port goes to EXECUTING with an operation in flight. -/
def State.execute (s : State) (p : Port) (tag : Byte) (discardReset : Bool) (w : Work) : State :=
  s.changePort p (fun q =>
    { q with state := .executing, operation := some { tag := tag, discardReset := discardReset, work := w } })

/-- R185 steps 1 and 2: a frame refused MALFORMED, or a request refused CLASS, gives up a discard sequence. -/
def State.turnAway (s : State) (p : Port) (tag : Byte) (st : Status) : State :=
  (s.setSequence p .none).answer p tag (s.port p).sequence.isSet { status := st }

/-- R185 step 2: the discard sequence as a request finds it: NONE for any but the discard requests. -/
def State.interrupt (s : State) (p : Port) (r : Request) : State := if isDiscard r then s else s.setSequence p .none

/-- R72, R73: what the port does with its owner's answer. `wasSet` says that the sequence was in FIRST_SET or BOTH_SET when the
request was taken. A refused discard request returns the sequence to NONE, and a taken DISCARD-LAST or DISCARD-COMMIT does not
carry DISCARD_RESET. -/
def State.settle (s : State) (p : Port) (tag : Byte) (r : Request) (wasSet : Bool) : Answer → State
  | .started w => s.execute p tag wasSet w
  | .reply res =>
      if isDiscard r && decide (res.status = .ok) then s.answer p tag (wasSet && isDiscardFirst r) res
      else (s.setSequence p .none).answer p tag wasSet res

/-- R185: the port takes a request. -/
def State.takeRequest (s : State) (p : Port) (tag : Byte) (r : Request) : State :=
  if formatOk r = false then s.turnAway p tag .malformed
  else if (s.port p).role.accepts (requestClass r) = false then s.turnAway p tag .class_
  else
    (handle p r (s.interrupt p r)).2.settle p tag r (s.port p).sequence.isSet (handle p r (s.interrupt p r)).1

/-- R184: what the bytes after the first of a transaction do at an IDLE port. -/
def State.takeBytes (s : State) (p : Port) (bs : List Byte) : State :=
  match receive bs with
  | .discarded => s
  | .malformed tag => s.turnAway p tag .malformed
  | .request tag r => s.takeRequest p tag r

/-! ### Transactions -/

/-- R183, R190, R191: what a transaction that begins now will be. -/
def State.spanNow (s : State) (p : Port) : Span :=
  if (s.port p).resetLine then .muted
  else if s.resetHeld.isSome then .lost []
  else
    match (s.port p).state with
    | .idle => .idle
    | .executing => .executing
    | .replyReady => .replyReady

/-- The transaction in progress, or the one that begins and ends now. -/
def State.spanOf (s : State) (p : Port) : Span := (s.port p).span.getD (s.spanNow p)

/-- R183: the bytes the part sends ahead of what it sends to the end: the state byte, and in REPLY_READY the reply frame. A
transaction begun under PRST has none, and one that a reset cut off has those it had sent (R190, R191). -/
def spanHead (reply : Option Reply) : Span → List Byte
  | .idle => [0x10#8]
  | .executing => [0x20#8]
  | .replyReady => 0x30#8 :: (match reply with | none => [] | some r => r.bytes)
  | .muted => []
  | .abandoned sent => sent
  | .lost sent => sent

/-- R183, R190: the `n` bytes after those: 0x00, but free values in a transaction lost to a device reset (assumption 7). -/
def spanTail (p : Port) (cuts n : Nat) : Span → List Byte
  | .lost _ => (List.range n).map (Config.lostByte p cuts)
  | _ => List.replicate n 0#8

/-- R183: the `n` bytes that port `p` sends in a transaction. -/
def sentBytes (p : Port) (cuts : Nat) (reply : Option Reply) (n : Nat) (sp : Span) : List Byte :=
  (spanHead reply sp ++ spanTail p cuts n sp).take n

/-- The transaction is lost to a device reset. -/
def Span.isLost : Span → Bool
  | .lost _ => true
  | _ => false

/-- R183: `n` clocked bytes hold the whole reply. -/
def repliedWhole (reply : Option Reply) (n : Nat) : Bool := decide ((spanHead reply .replyReady).length ≤ n)

/-- The transaction ends: none is in progress any more, and the bytes it sent are kept. -/
def State.closeSpan (s : State) (p : Port) (n : Nat) : State :=
  s.changePort p (fun r =>
    { r with
      span := none, sent := sentBytes p r.cuts r.reply n (s.spanOf p),
      cuts := if (s.spanOf p).isLost then r.cuts + 1 else r.cuts })

/-- R183: the whole reply has been clocked out. -/
def State.collected (s : State) (p : Port) : State := s.changePort p (fun r => { r with state := .idle, reply := none })

/-- R183, R184: a transaction of `n` whole bytes ends; `take` is what its bytes do at a port that was IDLE at its start. -/
def State.endSpan (s : State) (p : Port) (n : Nat) (take : State → State) : State :=
  match s.spanOf p with
  | .idle => take (s.closeSpan p n)
  | .replyReady => if repliedWhole (s.port p).reply n then (s.closeSpan p n).collected p else s.closeSpan p n
  | .executing => s.closeSpan p n
  | .muted => s.closeSpan p n
  | .abandoned _ => s.closeSpan p n
  | .lost _ => s.closeSpan p n

/-- A request's command: the span in which the controller of the port sends that request's frame (R184, R187). -/
def request (p : Port) (tag : Byte) (r : Request) (s : State) : Host.Outcome State Fault Refusal :=
  finish (s.endSpan p (7 + operandLength r) (fun s => s.takeRequest p tag r))

/-- TRANSACTION (R184). The bits after the last whole byte count for nothing. -/
def execTransaction (p : Port) (rx : List Byte) (_extraBits : Nat) (s : State) : Host.Outcome State Fault Refusal :=
  finish (s.endSpan p rx.length (fun s => s.takeBytes p rx.tail))

/-- TRANSACTION_BEGIN (R183). SSEL cannot fall again while a transaction is in progress. -/
def execTransactionBegin (p : Port) (s : State) : Host.Outcome State Fault Refusal :=
  finish (s.changePort p (fun r => { r with span := some (s.spanOf p) }))

/-! ### The end of an operation -/

/-- R182: the operation of the port ends with its owner's reply, which is dropped under the discard mark. -/
def State.completeOp (s : State) (p : Port) (o : Operation) (res : Result) : State :=
  if (s.port p).discardMark then
    s.changePort p (fun r => { r with state := .idle, operation := none, discardMark := false })
  else (s.changePort p (fun r => { r with operation := none })).answer p o.tag o.discardReset res

/-- R56: the block program of the port completes. -/
def State.programDone (s : State) (p : Port) : State :=
  match (s.port p).operation with
  | none => s
  | some o =>
    match o.work with
    | .fetch _ _ => s
    | .program take block data =>
      match Tab.look s.takeMem.takes take with
      | none => s
      | some t =>
        (s.setTakeMem (s.takeMem.blockDone take t block data)).completeOp p o { status := .ok, results := le 4 (t.blocks + 1) }

/-- R57: the block program of the port fails. -/
def State.programFailed (s : State) (p : Port) : State :=
  match (s.port p).operation with
  | none => s
  | some o =>
    match o.work with
    | .fetch _ _ => s
    | .program take block _ =>
      match Tab.look s.takeMem.takes take with
      | none => s
      | some t =>
        match t.current with
        | none => s
        | some g => (s.blockFailed take t block g).completeOp p o (faultReply t.blocks block g)

/-- R160, R168: the data fetch of the port completes. Under the discard mark its hold then ends. -/
def State.fetchDone (s : State) (p : Port) : State :=
  match (s.port p).operation with
  | none => s
  | some o =>
    match o.work with
    | .program _ _ _ => s
    | .fetch slot stale =>
      if (s.port p).discardMark then ((s.endFetch slot).endHold slot).completeOp p o (s.fetchReply slot stale)
      else (s.endFetch slot).completeOp p o (s.fetchReply slot stale)

/-- PROGRAM_COMPLETION (R56). -/
def execProgramCompletion (p : Port) (s : State) : Host.Outcome State Fault Refusal := event (fun s => s.programDone p) s

/-- PROGRAM_FAULT (R57). -/
def execProgramFault (p : Port) (s : State) : Host.Outcome State Fault Refusal := event (fun s => s.programFailed p) s

/-- FETCH_COMPLETION (R160). -/
def execFetchCompletion (p : Port) (s : State) : Host.Outcome State Fault Refusal := event (fun s => s.fetchDone p) s

/-! ### The reset lines -/

/-- R183: the bytes that a transaction of port `p` has sent when a reset cuts it off. How many bytes had been clocked is a free
value; in a transaction lost already, it is how many since then (assumption 7). -/
def sentBefore (p : Port) (cuts : Nat) (reply : Option Reply) : Span → List Byte
  | .lost sent => sent ++ spanTail p cuts (Config.clockedBefore p cuts) (.lost sent)
  | sp => sentBytes p cuts reply (Config.clockedBefore p cuts) sp

/-- R190: what an assertion of PRST makes of a transaction in progress, `before` being what it has sent: it sends 0x00 from then
on. One that sends 0x00 to its end already goes on as it is. -/
def Span.mute (before : List Byte) : Span → Span
  | .muted => .muted
  | .abandoned sent => .abandoned sent
  | _ => .abandoned before

/-- R191: what a device reset makes of a transaction in progress, `before` being what it has sent. One that sends 0x00 to its end
goes on as it is (R190), and one that is lost stays so. -/
def Span.lose (before : List Byte) : Span → Span
  | .muted => .muted
  | .abandoned sent => .abandoned sent
  | .lost sent => .lost sent
  | _ => .lost before

/-- A reset cuts off the transaction in progress at port `p`, if there is one; `cut` is what it makes of it. -/
def PortRecord.cutSpan (p : Port) (cut : List Byte → Span → Span) (r : PortRecord) : PortRecord :=
  { r with span := r.span.map (fun sp => cut (sentBefore p r.cuts r.reply sp) sp), cuts := r.cuts + 1 }

/-- R190 step 1 at port `p`: the transaction is abandoned, and the line holds the output at 0x00. -/
def PortRecord.assertLine (p : Port) (r : PortRecord) : PortRecord := { r.cutSpan p Span.mute with resetLine := true }

/-- R190 steps 1 to 3 at port `p`: the transaction is abandoned, a reply is dropped, and an operation is marked. -/
def PortRecord.cutOff (p : Port) (r : PortRecord) : PortRecord :=
  { r.assertLine p with
    reply := none, state := if r.state = .executing then .executing else .idle, discardMark := decide (r.state = .executing) }

/-- PORT_RESET_LINE (R190). While a device reset is held there is nothing to reset but the transaction (assumption 11). -/
def execPortResetLine (p : Port) (s : State) : Host.Outcome State Fault Refusal :=
  finish
    (if s.resetHeld.isSome then s.changePort p (PortRecord.assertLine p)
     else (s.changePort p (PortRecord.cutOff p)).resetPort p)

/-- PORT_RESET_LINE_RELEASE (R190). A transaction that began under the line stays discarded. -/
def execPortResetLineRelease (p : Port) (s : State) : Host.Outcome State Fault Refusal :=
  finish (s.changePort p (fun r => { r with resetLine := false }))

/-! ### Device reset -/

/-- R191: a power-on that has begun stays the cause. -/
def joinCause (held : Option ResetCause) (cause : ResetCause) : ResetCause :=
  if held = some .powerOn then .powerOn else cause

/-- R191, R193: port `p` gives up its transaction, operation and reply. -/
def PortRecord.abandon (p : Port) (r : PortRecord) : PortRecord :=
  { r.cutSpan p Span.lose with state := .idle, reply := none, operation := none, discardMark := false }

/-- R47, R168, R191: every operation in flight is abandoned. -/
def State.abandonAll (s : State) : State :=
  { s with
    ports := { a := s.ports.a.abandon .a, b := s.ports.b.abandon .b, c := s.ports.c.abandon .c },
    takeMem := { s.takeMem with takes := s.takeMem.takes.map (fun e => (e.1, { e.2 with inFlight := none })) },
    holdTable := { s.holdTable with holds := s.holdTable.holds.map (fun e => (e.1, { e.2 with read := none })) } }

/-- RESET_PIN_ASSERTED (R191). -/
def execResetPinAsserted (cause : ResetCause) (s : State) : Host.Outcome State Fault Refusal :=
  finish { s.abandonAll with resetHeld := some (joinCause s.resetHeld cause) }

/-- R180: the role that straps give. -/
def strapRole (x : Straps) : Role :=
  match x.strap1, x.strap0 with
  | false, false => .ingest
  | false, true => .edit
  | true, false => .delivery
  | true, true => .full

/-- R191: port `p` when a device reset ends: as `PortRecord.atReset`, but for the level of its reset line, for a transaction that
is still in progress on the link, which is lost, and for the model's own counter of free values. -/
def PortRecord.restart (p : Port) (r : PortRecord) (role : Role) : PortRecord :=
  { PortRecord.atReset role with
    resetLine := r.resetLine, span := (r.cutSpan p Span.lose).span, cuts := (r.cutSpan p Span.lose).cuts }

/-- R191: the part when a device reset ends. -/
def State.restart (s : State) (cause : ResetCause) (ra rb rc : Role) : State :=
  { State.reset with
    ports := { a := s.ports.a.restart .a ra, b := s.ports.b.restart .b rb, c := s.ports.c.restart .c rc },
    cause := joinCause s.resetHeld cause, pending := s.pending }

/-- DEVICE_RESET (R191). -/
def execDeviceReset (cause : ResetCause) (strapsA strapsB strapsC : Straps) (s : State) : Host.Outcome State Fault Refusal :=
  finish (s.restart cause (strapRole strapsA) (strapRole strapsB) (strapRole strapsC))

end Sys2Proof.Machine
end

