-- ==== Sys2Proof/Machine/Requests.lean ====
section
/-! DEFINITION. The meaning of each request's command: the span that carries that request's frame (R184). What the request does is
the definition of its owner: openTake in Machine/Takes.lean, registerTitle in Machine/Titles.lean, and so on. -/

namespace Sys2Proof.Machine

/-- OPEN_TAKE (R51). -/
def execOpenTake (p : Port) (tag : Byte) (th : Nat) (s : State) :
    Host.Outcome State Fault Refusal := request p tag (.openTake th) s

/-- WRITE_BLOCK (R52). -/
def execWriteBlock (p : Port) (tag : Byte) (th : Nat) (take : Nat) (block : Nat) (data : List Byte) (crc : BitVec 16) (s : State) :
    Host.Outcome State Fault Refusal := request p tag (.writeBlock th take block data crc) s

/-- CLOSE_TAKE (R59). -/
def execCloseTake (p : Port) (tag : Byte) (th : Nat) (take : Nat) (tail : Nat) (s : State) :
    Host.Outcome State Fault Refusal := request p tag (.closeTake th take tail) s

/-- DISCARD_FIRST (R67). -/
def execDiscardFirst (p : Port) (tag : Byte) (th : Nat) (take : Nat) (index : Nat) (s : State) :
    Host.Outcome State Fault Refusal := request p tag (.discardFirst th take index) s

/-- DISCARD_LAST (R68). -/
def execDiscardLast (p : Port) (tag : Byte) (th : Nat) (take : Nat) (index : Nat) (s : State) :
    Host.Outcome State Fault Refusal := request p tag (.discardLast th take index) s

/-- DISCARD_COMMIT (R70). -/
def execDiscardCommit (p : Port) (tag : Byte) (th : Nat) (s : State) :
    Host.Outcome State Fault Refusal := request p tag (.discardCommit th) s

/-- REGISTER_TITLE (R3). -/
def execRegisterTitle (p : Port) (tag : Byte) (catalogue : Nat) (s : State) :
    Host.Outcome State Fault Refusal := request p tag (.registerTitle catalogue) s

/-- SET_TITLE_PARAMS (R6). -/
def execSetTitleParams (p : Port) (tag : Byte) (th : Nat) (mask : Byte) (values : Loudness) (s : State) :
    Host.Outcome State Fault Refusal := request p tag (.setTitleParams th mask values) s

/-- SET_PROFILE (R7). -/
def execSetProfile (p : Port) (tag : Byte) (th : Nat) (index : Nat) (profile : Profile) (s : State) :
    Host.Outcome State Fault Refusal := request p tag (.setProfile th index profile) s

/-- SET_PROFILE_COUNT (R8). -/
def execSetProfileCount (p : Port) (tag : Byte) (th : Nat) (count : Nat) (s : State) :
    Host.Outcome State Fault Refusal := request p tag (.setProfileCount th count) s

/-- SET_ROOM_TONE (R9). -/
def execSetRoomTone (p : Port) (tag : Byte) (th : Nat) (take : Nat) (start : Nat) (length : Nat) (s : State) :
    Host.Outcome State Fault Refusal := request p tag (.setRoomTone th take start length) s

/-- CLEAR_ROOM_TONE (R10). -/
def execClearRoomTone (p : Port) (tag : Byte) (th : Nat) (s : State) :
    Host.Outcome State Fault Refusal := request p tag (.clearRoomTone th) s

/-- HOLD_TITLE (R12). -/
def execHoldTitle (p : Port) (tag : Byte) (th : Nat) (s : State) :
    Host.Outcome State Fault Refusal := request p tag (.holdTitle th) s

/-- RELEASE_TITLE (R13). -/
def execReleaseTitle (p : Port) (tag : Byte) (th : Nat) (s : State) :
    Host.Outcome State Fault Refusal := request p tag (.releaseTitle th) s

/-- FINALIZE_TITLE (R14). -/
def execFinalizeTitle (p : Port) (tag : Byte) (th : Nat) (s : State) :
    Host.Outcome State Fault Refusal := request p tag (.finalizeTitle th) s

/-- RETIRE_TITLE (R16). -/
def execRetireTitle (p : Port) (tag : Byte) (th : Nat) (s : State) :
    Host.Outcome State Fault Refusal := request p tag (.retireTitle th) s

/-- DEFINE_CHAPTER (R23). -/
def execDefineChapter (p : Port) (tag : Byte) (th : Nat) (chapter : Nat) (s : State) :
    Host.Outcome State Fault Refusal := request p tag (.defineChapter th chapter) s

/-- DELETE_CHAPTER (R37). -/
def execDeleteChapter (p : Port) (tag : Byte) (th : Nat) (chapter : Nat) (s : State) :
    Host.Outcome State Fault Refusal := request p tag (.deleteChapter th chapter) s

/-- SET_CHAPTER_PADS (R28). -/
def execSetChapterPads (p : Port) (tag : Byte) (th : Nat) (chapter : Nat) (head : Nat) (tail : Nat) (s : State) :
    Host.Outcome State Fault Refusal := request p tag (.setChapterPads th chapter head tail) s

/-- INSERT_SEGMENT (R25). -/
def execInsertSegment (p : Port) (tag : Byte) (th : Nat) (chapter : Nat) (position : Nat) (segment : Segment) (s : State) :
    Host.Outcome State Fault Refusal := request p tag (.insertSegment th chapter position segment) s

/-- REPLACE_SEGMENT (R26). -/
def execReplaceSegment (p : Port) (tag : Byte) (th : Nat) (chapter : Nat) (position : Nat) (segment : Segment) (s : State) :
    Host.Outcome State Fault Refusal := request p tag (.replaceSegment th chapter position segment) s

/-- REMOVE_SEGMENT (R27). -/
def execRemoveSegment (p : Port) (tag : Byte) (th : Nat) (chapter : Nat) (position : Nat) (s : State) :
    Host.Outcome State Fault Refusal := request p tag (.removeSegment th chapter position) s

/-- QUEUE_RENDER (R78). -/
def execQueueRender (p : Port) (tag : Byte) (th : Nat) (chapter : Nat) (priority : Nat) (s : State) :
    Host.Outcome State Fault Refusal := request p tag (.queueRender th chapter priority) s

/-- CANCEL_RENDER (R79). -/
def execCancelRender (p : Port) (tag : Byte) (th : Nat) (chapter : Nat) (s : State) :
    Host.Outcome State Fault Refusal := request p tag (.cancelRender th chapter) s

/-- SET_WHEEL (R86). -/
def execSetWheel (p : Port) (tag : Byte) (e0 : Nat) (e1 : Nat) (e2 : Nat) (e3 : Nat) (s : State) :
    Host.Outcome State Fault Refusal := request p tag (.setWheel e0 e1 e2 e3) s

/-- SET_LANES (R87). -/
def execSetLanes (p : Port) (tag : Byte) (lanes : Byte) (s : State) :
    Host.Outcome State Fault Refusal := request p tag (.setLanes lanes) s

/-- SET_HOLD_LIMIT (R155). -/
def execSetHoldLimit (p : Port) (tag : Byte) (seconds : Int) (s : State) :
    Host.Outcome State Fault Refusal := request p tag (.setHoldLimit seconds) s

/-- OPEN_READ (R157). -/
def execOpenRead (p : Port) (tag : Byte) (th : Nat) (chapter : Nat) (rendition : Nat) (s : State) :
    Host.Outcome State Fault Refusal := request p tag (.openRead th chapter rendition) s

/-- READ_RANGE (R159). -/
def execReadRange (p : Port) (tag : Byte) (th : Nat) (slot : Nat) (generation : Nat) (offset : Nat) (length : Nat) (s : State) :
    Host.Outcome State Fault Refusal := request p tag (.readRange th slot generation offset length) s

/-- CLOSE_READ (R161). -/
def execCloseRead (p : Port) (tag : Byte) (th : Nat) (slot : Nat) (generation : Nat) (s : State) :
    Host.Outcome State Fault Refusal := request p tag (.closeRead th slot generation) s

/-- TITLE_INFO (R4). -/
def execTitleInfo (p : Port) (tag : Byte) (th : Nat) (s : State) :
    Host.Outcome State Fault Refusal := request p tag (.titleInfo th) s

/-- CHAPTER_INFO (R38). -/
def execChapterInfo (p : Port) (tag : Byte) (th : Nat) (chapter : Nat) (s : State) :
    Host.Outcome State Fault Refusal := request p tag (.chapterInfo th chapter) s

/-- TAKE_INFO (R61). -/
def execTakeInfo (p : Port) (tag : Byte) (th : Nat) (take : Nat) (first : Nat) (s : State) :
    Host.Outcome State Fault Refusal := request p tag (.takeInfo th take first) s

/-- LANE_INFO (R95). -/
def execLaneInfo (p : Port) (tag : Byte) (s : State) :
    Host.Outcome State Fault Refusal := request p tag .laneInfo s

/-- POP_NOTICE (R175). -/
def execPopNotice (p : Port) (tag : Byte) (list : Nat) (s : State) :
    Host.Outcome State Fault Refusal := request p tag (.popNotice list) s

/-- SET_NOTICE_MASK (R176). -/
def execSetNoticeMask (p : Port) (tag : Byte) (lists : Byte) (s : State) :
    Host.Outcome State Fault Refusal := request p tag (.setNoticeMask lists) s

/-- DEVICE_STATUS (R192). -/
def execDeviceStatus (p : Port) (tag : Byte) (s : State) :
    Host.Outcome State Fault Refusal := request p tag .deviceStatus s

/-- PORT_RESET (R189). -/
def execPortReset (p : Port) (tag : Byte) (s : State) :
    Host.Outcome State Fault Refusal := request p tag .portReset s

end Sys2Proof.Machine
end

