-- ==== Sys2Proof/Machine/Wheel.lean ====
section
/-! DEFINITION. Dispatch (R81, R82) and the slot of the wheel with the block of progress it grants (R85, R89 to R92). -/

namespace Sys2Proof.Machine

/-! ### Dispatch -/

/-- R82: the render a lane starts. -/
def startRender (c : ChapterId) (origin : Priority) (t : Title) (k : Chapter) : Render :=
  { chapter := c, origin := origin, params := { loudness := t.loudness, profiles := t.profiles, roomTone := t.roomTone },
    timeline := { headPad := k.headPad, segments := k.segments, tailPad := k.tailPad }, pass := 0,
    stage := .measure { cursor := 0, held := none } Meter.start }

/-- R82: lane `i` takes chapter `c`, which has left its FIFO. -/
def State.dispatchTo (s : State) (i : Fin 4) (c : ChapterId) (origin : Priority) (q : RenderQueue) : State :=
  match s.title? c.title, s.chapter? c with
  | some t, some k =>
    { s with
      queue := q,
      lanes := s.lanes.set i { s.lanes.get i with render := some (startRender c origin t k) },
      chapters := Tab.put s.chapters c.key { k with state := .measuring } }
  | _, _ => s

/-- R81: one dispatch. The head of RUSH, or of NORMAL when RUSH is empty, goes to the lowest dispatchable lane. -/
def State.dispatchOne (s : State) : State :=
  match fourIndexes.find? s.dispatchable with
  | none => s
  | some i =>
    match s.queue.rush, s.queue.normal with
    | c :: rest, _ => s.dispatchTo i c .rush { s.queue with rush := rest }
    | [], c :: rest => s.dispatchTo i c .normal { s.queue with normal := rest }
    | [], [] => s

/-! ### The slot -/

/-- R85: the wheel moves to the next slot; after slot 3 a pending pattern comes into force. -/
def Wheel.advance (w : Wheel) : Wheel :=
  if w.slot = 3 then { pattern := w.pending.getD w.pattern, pending := none, slot := 0 } else { w with slot := w.slot + 1 }

/-- The render of lane `i` replaced. -/
def State.setRender (s : State) (i : Fin 4) (r : Render) : State :=
  s.setLane i { s.lanes.get i with render := some r }

/-- R92, TAKE_FAULT: the read of a group fails at the pass position. -/
def State.failRead (s : State) (i : Fin 4) (r : Render) (group : Nat) : State :=
  ({ s with takeMem := s.takeMem.markFaulted group }).failRender i .takeFault (some group) (some r.pass)

/-- R89, R90: the lane has measured the block at its pass position; after the last block the pass ends. -/
def State.measured (s : State) (i : Fin 4) (r : Render) (held : Option HeldBlock) (m : Meter) : State :=
  if r.pass + 1 = r.timeline.blocks then
    let s1 := s.setRender i { r with
      pass := 0,
      stage := .encode { cursor := 0, held := none } (m.gain r.params.loudness) 0 (startEncoders 0 r.params.profiles) }
    s1.changeChapter r.chapter (fun k => { k with state := .encoding })
  else
    s.setRender i { r with
      pass := r.pass + 1, stage := .measure { cursor := (r.pass + 1) * 1024, held := held } m }

/-- R91, R152, R153: the lane has finished its last frame and asks for the commit, which is taken at once or waits for the holds
that name the chapter. `es` are the encoders, restored and with their headers finalised. -/
def State.askCommit (s : State) (i : Fin 4) (r : Render) (gain : GainRecord) (saturated : Nat) (es : List Encoder) : State :=
  if s.held r.chapter then
    (s.setRender i { r with pass := r.pass + 1, stage := .commitWait gain saturated es }).changeChapter r.chapter
      (fun k => { k with state := .commitWait })
  else
    (s.setRender i { r with
      pass := r.pass + 1,
      stage := .encode { cursor := r.timeline.length, held := none } gain saturated es }).commit i

/-- R147: the headers of all images of a render, stored in ascending rendition index. -/
def writeHeaders (m : Memory) (catalogue : Nat) (r : Render) (gain : GainRecord) (saturated : Nat) (es : List Encoder) :
    Memory :=
  es.foldl (fun m e => writeImage m e.pages 0
    (headerBytes catalogue r.chapter gain r.params.roomTone.isNone r.timeline.length saturated e)) m

/-- R138: the end of the encode pass, after the last frame: restores with the ended mark, headers, commit. -/
def State.endEncode (s : State) (i : Fin 4) (r : Render) (gain : GainRecord) (saturated : Nat) (es : List Encoder) : State :=
  ({ s with
      ports := s.ports.notify (NoticeLists.postCrossings r.chapter (endedRestores es)),
      rendMem := { s.rendMem with
        mem := writeHeaders s.rendMem.mem (match s.title? r.chapter.title with | none => 0 | some t => t.catalogue) r gain
          saturated es } }).askCommit i r gain saturated (es.map Encoder.restored)

/-- R140 steps 4 and 5: every encoder takes the frame; `es` hold the pages drawn for it and `pool` is the pool left. -/
def State.takeFrame (s : State) (i : Fin 4) (r : Render) (held : Option HeldBlock) (gain : GainRecord) (saturated : Nat)
    (es : List Encoder) (pool : List Nat) (voiced : Bool) (ys : List Int) : State :=
  let s1 := { s with
    ports := s.ports.notify (NoticeLists.postCrossings r.chapter (es.filterMap (fun e => Encoder.crossing e voiced r.pass))),
    rendMem := { s.rendMem with pool := pool, mem := writeFrames s.rendMem.mem voiced ys es } }
  let es' := es.map (fun e => e.takeFrame voiced ys r.pass)
  if r.pass + 1 = r.timeline.blocks then s1.endEncode i r gain saturated es'
  else
    s1.setRender i { r with
      pass := r.pass + 1, stage := .encode { cursor := (r.pass + 1) * 1024, held := held } gain saturated es' }

/-- R140, R126: the lane has built block `xs`, which is gained and offered to the encoders. If a page is needed and the pool is
empty, no encoder takes the frame and the render fails NO_SPACE (R145). -/
def State.encoded (s : State) (i : Fin 4) (r : Render) (a : Assembly) (held : Option HeldBlock) (gain : GainRecord)
    (saturated : Nat) (es : List Encoder) (xs : List Int) : State :=
  let ys := gainBlock gain.q xs
  let saturated' := saturated + saturations gain.q xs
  let voiced := isVoiced r.params.loudness.silence ys
  match drawPages voiced es s.rendMem.pool with
  | (es', pool, true) => s.takeFrame i r held gain saturated' es' pool voiced ys
  | (es', pool, false) =>
    (({ s with rendMem := { s.rendMem with pool := pool } }).setRender i
      { r with stage := .encode a gain saturated' es' }).failRender i .noSpace none none

/-- R85, R89, R91: the block of progress that a slot grants to lane `i`; `none` where a lane read has no block to read. -/
def State.progress (s : State) (i : Fin 4) (r : Render) (failRead : Option Nat) : Option State :=
  match r.stage with
  | .measure a m =>
    match buildBlock s.takeMem failRead (blockSources r.timeline r.params.roomTone r.pass) a.held 0 with
    | .stray => none
    | .readError g => some (s.failRead i r g)
    | .complete held xs => some (s.measured i r held (m.addBlock xs (endsQuad r.timeline.blocks r.pass)))
  | .encode a gain saturated es =>
    match buildBlock s.takeMem failRead (blockSources r.timeline r.params.roomTone r.pass) a.held 0 with
    | .stray => none
    | .readError g => some (s.failRead i r g)
    | .complete held xs => some (s.encoded i r a held gain saturated es xs)
  | .commitWait _ _ _ => some s

/-- R85: the slot's lane, if the entry names a lane that is enabled and holds a render, makes its block. -/
def State.grantSlot (s : State) (failRead : Option Nat) : Option State :=
  match s.wheel.pattern.get s.wheel.slot with
  | none => some s
  | some i =>
    match (s.lanes.get i).render with
    | none => some s
    | some r => if (s.lanes.get i).enabled then s.progress i r failRead else some s

/-- R85: the wheel has visited its slot. -/
def State.advanceWheel (s : State) : State := { s with wheel := s.wheel.advance }

/-- DISPATCH (R82). With no lane dispatchable or both FIFOs empty there is nothing to hand over. -/
def execDispatch (s : State) : Host.Outcome State Fault Refusal := event State.dispatchOne s

/-- WHEEL_SLOT (R85). -/
def execWheelSlot (failRead : Option Nat) (s : State) : Host.Outcome State Fault Refusal :=
  if s.resetHeld.isSome then finish s
  else
    match s.grantSlot failRead with
    | none => .fault .strayLaneRead
    | some s' => finish s'.advanceWheel

end Sys2Proof.Machine
end

