-- ==== Sys2Proof/Machine/Dispatch.lean ====
section
/-! DEFINITION. The command's effect on everything but the queue of waiting commands: one arm per row of the opcode table. -/

namespace Sys2Proof.Machine

def exec (i : Instr) (s : State) : Host.Outcome State Fault Refusal :=
  match i with
  | .deviceReset cause strapsA strapsB strapsC => Sys2Proof.Machine.execDeviceReset cause strapsA strapsB strapsC s
  | .transaction p rx extraBits => Sys2Proof.Machine.execTransaction p rx extraBits s
  | .portResetLine p => Sys2Proof.Machine.execPortResetLine p s
  | .openTake p tag th => Sys2Proof.Machine.execOpenTake p tag th s
  | .writeBlock p tag th take block data crc => Sys2Proof.Machine.execWriteBlock p tag th take block data crc s
  | .closeTake p tag th take tail => Sys2Proof.Machine.execCloseTake p tag th take tail s
  | .discardFirst p tag th take index => Sys2Proof.Machine.execDiscardFirst p tag th take index s
  | .discardLast p tag th take index => Sys2Proof.Machine.execDiscardLast p tag th take index s
  | .discardCommit p tag th => Sys2Proof.Machine.execDiscardCommit p tag th s
  | .registerTitle p tag catalogue => Sys2Proof.Machine.execRegisterTitle p tag catalogue s
  | .setTitleParams p tag th mask values => Sys2Proof.Machine.execSetTitleParams p tag th mask values s
  | .setProfile p tag th index profile => Sys2Proof.Machine.execSetProfile p tag th index profile s
  | .setProfileCount p tag th count => Sys2Proof.Machine.execSetProfileCount p tag th count s
  | .setRoomTone p tag th take start length => Sys2Proof.Machine.execSetRoomTone p tag th take start length s
  | .clearRoomTone p tag th => Sys2Proof.Machine.execClearRoomTone p tag th s
  | .holdTitle p tag th => Sys2Proof.Machine.execHoldTitle p tag th s
  | .releaseTitle p tag th => Sys2Proof.Machine.execReleaseTitle p tag th s
  | .finalizeTitle p tag th => Sys2Proof.Machine.execFinalizeTitle p tag th s
  | .retireTitle p tag th => Sys2Proof.Machine.execRetireTitle p tag th s
  | .defineChapter p tag th chapter => Sys2Proof.Machine.execDefineChapter p tag th chapter s
  | .deleteChapter p tag th chapter => Sys2Proof.Machine.execDeleteChapter p tag th chapter s
  | .setChapterPads p tag th chapter head tail => Sys2Proof.Machine.execSetChapterPads p tag th chapter head tail s
  | .insertSegment p tag th chapter position segment => Sys2Proof.Machine.execInsertSegment p tag th chapter position segment s
  | .replaceSegment p tag th chapter position segment => Sys2Proof.Machine.execReplaceSegment p tag th chapter position segment s
  | .removeSegment p tag th chapter position => Sys2Proof.Machine.execRemoveSegment p tag th chapter position s
  | .queueRender p tag th chapter priority => Sys2Proof.Machine.execQueueRender p tag th chapter priority s
  | .cancelRender p tag th chapter => Sys2Proof.Machine.execCancelRender p tag th chapter s
  | .setWheel p tag e0 e1 e2 e3 => Sys2Proof.Machine.execSetWheel p tag e0 e1 e2 e3 s
  | .setLanes p tag lanes => Sys2Proof.Machine.execSetLanes p tag lanes s
  | .setHoldLimit p tag seconds => Sys2Proof.Machine.execSetHoldLimit p tag seconds s
  | .openRead p tag th chapter rendition => Sys2Proof.Machine.execOpenRead p tag th chapter rendition s
  | .readRange p tag th slot generation offset length => Sys2Proof.Machine.execReadRange p tag th slot generation offset length s
  | .closeRead p tag th slot generation => Sys2Proof.Machine.execCloseRead p tag th slot generation s
  | .titleInfo p tag th => Sys2Proof.Machine.execTitleInfo p tag th s
  | .chapterInfo p tag th chapter => Sys2Proof.Machine.execChapterInfo p tag th chapter s
  | .takeInfo p tag th take first => Sys2Proof.Machine.execTakeInfo p tag th take first s
  | .laneInfo p tag => Sys2Proof.Machine.execLaneInfo p tag s
  | .popNotice p tag list => Sys2Proof.Machine.execPopNotice p tag list s
  | .setNoticeMask p tag lists => Sys2Proof.Machine.execSetNoticeMask p tag lists s
  | .deviceStatus p tag => Sys2Proof.Machine.execDeviceStatus p tag s
  | .portReset p tag => Sys2Proof.Machine.execPortReset p tag s
  | .programCompletion p => Sys2Proof.Machine.execProgramCompletion p s
  | .programFault p => Sys2Proof.Machine.execProgramFault p s
  | .eraseStart => Sys2Proof.Machine.execEraseStart s
  | .eraseCompletion => Sys2Proof.Machine.execEraseCompletion s
  | .eraseFault => Sys2Proof.Machine.execEraseFault s
  | .fetchCompletion p => Sys2Proof.Machine.execFetchCompletion p s
  | .dispatch => Sys2Proof.Machine.execDispatch s
  | .wheelSlot failRead => Sys2Proof.Machine.execWheelSlot failRead s
  | .holdClockStep => Sys2Proof.Machine.execHoldClockStep s
  | .holdExpiry => Sys2Proof.Machine.execHoldExpiry s
  | .resetPinAsserted cause => Sys2Proof.Machine.execResetPinAsserted cause s
  | .portResetLineRelease p => Sys2Proof.Machine.execPortResetLineRelease p s
  | .transactionBegin p => Sys2Proof.Machine.execTransactionBegin p s

end Sys2Proof.Machine
end

