-- ==== Sys2Proof/WellFormed.lean ====
section
/-! DEFINITION. Well-formed requests and commands: every operand has a value its field of the frame can hold (R187). A
range that a rule refuses (RANGE, BAD_HANDLE, …) is no part of this: such a value is well formed and the rule answers it. -/

namespace Sys2Proof

/-- The whole number fits one byte. -/
abbrev fits1 (n : Nat) : Bool := decide (n < 256)
/-- The whole number fits two bytes. -/
abbrev fits2 (n : Nat) : Bool := decide (n < 65536)
/-- The whole number fits four bytes. -/
abbrev fits4 (n : Nat) : Bool := decide (n < 4294967296)
/-- The whole number fits eight bytes. -/
abbrev fits8 (n : Nat) : Bool := decide (n < 18446744073709551616)
/-- The number fits a signed 16-bit two's complement field. -/
abbrev fitsI (x : Int) : Bool := decide (-32768 ≤ x) && decide (x ≤ 32767)

/-- The six fields of a segment fit their fields of the frame: 2, 4, 4, 2, 2 and 4 bytes. -/
def Segment.wellFormed (g : Segment) : Bool :=
  fits2 g.take && fits4 g.start && fits4 g.length && fits2 g.fadeIn && fits2 g.fadeOut && fits4 g.gap

/-- The six fields of a profile fit their fields of the frame: 1 byte, then 2 bytes each. -/
def Profile.wellFormed (p : Profile) : Bool :=
  fits1 p.bmin && fits2 p.bsus && fits2 p.bpeak && fits2 p.cmax && fits2 p.ts && fits2 p.d

/-- The five values are signed 16-bit numbers. -/
def Loudness.wellFormed (l : Loudness) : Bool :=
  fitsI l.target && fitsI l.tolerance && fitsI l.ceiling && fitsI l.absGate && fitsI l.silence

/-- Every operand of the request, and its title handle byte, fits its field. -/
def Request.wellFormed : Request → Bool
  | .openTake th => fits1 th
  | .writeBlock th take block data _ => fits1 th && fits2 take && fits4 block && decide (data.length = 3072)
  | .closeTake th take tail => fits1 th && fits2 take && fits2 tail
  | .discardFirst th take index => fits1 th && fits2 take && fits2 index
  | .discardLast th take index => fits1 th && fits2 take && fits2 index
  | .discardCommit th => fits1 th
  | .registerTitle catalogue => fits8 catalogue
  | .setTitleParams th _ values => fits1 th && values.wellFormed
  | .setProfile th index profile => fits1 th && fits1 index && profile.wellFormed
  | .setProfileCount th count => fits1 th && fits1 count
  | .setRoomTone th take start length => fits1 th && fits2 take && fits4 start && fits4 length
  | .clearRoomTone th => fits1 th
  | .holdTitle th => fits1 th
  | .releaseTitle th => fits1 th
  | .finalizeTitle th => fits1 th
  | .retireTitle th => fits1 th
  | .defineChapter th chapter => fits1 th && fits1 chapter
  | .deleteChapter th chapter => fits1 th && fits1 chapter
  | .setChapterPads th chapter head tail => fits1 th && fits1 chapter && fits4 head && fits4 tail
  | .insertSegment th chapter position segment => fits1 th && fits1 chapter && fits1 position && segment.wellFormed
  | .replaceSegment th chapter position segment => fits1 th && fits1 chapter && fits1 position && segment.wellFormed
  | .removeSegment th chapter position => fits1 th && fits1 chapter && fits1 position
  | .queueRender th chapter priority => fits1 th && fits1 chapter && fits1 priority
  | .cancelRender th chapter => fits1 th && fits1 chapter
  | .setWheel e0 e1 e2 e3 => fits1 e0 && fits1 e1 && fits1 e2 && fits1 e3
  | .setLanes _ => true
  | .setHoldLimit seconds => fitsI seconds
  | .openRead th chapter rendition => fits1 th && fits1 chapter && fits1 rendition
  | .readRange th slot generation offset length =>
      fits1 th && fits1 slot && fits1 generation && fits4 offset && fits2 length
  | .closeRead th slot generation => fits1 th && fits1 slot && fits1 generation
  | .titleInfo th => fits1 th
  | .chapterInfo th chapter => fits1 th && fits1 chapter
  | .takeInfo th take first => fits1 th && fits2 take && fits2 first
  | .laneInfo => true
  | .popNotice list => fits1 list
  | .setNoticeMask _ => true
  | .deviceStatus => true
  | .portReset => true

/-- The request a command sends, with its port and tag; `none` for a command that is no request of its own. -/
def Instr.request? : Instr → Option (Port × Byte × Request)
  | .openTake p tag th => some (p, tag, .openTake th)
  | .writeBlock p tag th take block data crc => some (p, tag, .writeBlock th take block data crc)
  | .closeTake p tag th take tail => some (p, tag, .closeTake th take tail)
  | .discardFirst p tag th take index => some (p, tag, .discardFirst th take index)
  | .discardLast p tag th take index => some (p, tag, .discardLast th take index)
  | .discardCommit p tag th => some (p, tag, .discardCommit th)
  | .registerTitle p tag catalogue => some (p, tag, .registerTitle catalogue)
  | .setTitleParams p tag th mask values => some (p, tag, .setTitleParams th mask values)
  | .setProfile p tag th index profile => some (p, tag, .setProfile th index profile)
  | .setProfileCount p tag th count => some (p, tag, .setProfileCount th count)
  | .setRoomTone p tag th take start length => some (p, tag, .setRoomTone th take start length)
  | .clearRoomTone p tag th => some (p, tag, .clearRoomTone th)
  | .holdTitle p tag th => some (p, tag, .holdTitle th)
  | .releaseTitle p tag th => some (p, tag, .releaseTitle th)
  | .finalizeTitle p tag th => some (p, tag, .finalizeTitle th)
  | .retireTitle p tag th => some (p, tag, .retireTitle th)
  | .defineChapter p tag th chapter => some (p, tag, .defineChapter th chapter)
  | .deleteChapter p tag th chapter => some (p, tag, .deleteChapter th chapter)
  | .setChapterPads p tag th chapter head tail => some (p, tag, .setChapterPads th chapter head tail)
  | .insertSegment p tag th chapter position segment => some (p, tag, .insertSegment th chapter position segment)
  | .replaceSegment p tag th chapter position segment => some (p, tag, .replaceSegment th chapter position segment)
  | .removeSegment p tag th chapter position => some (p, tag, .removeSegment th chapter position)
  | .queueRender p tag th chapter priority => some (p, tag, .queueRender th chapter priority)
  | .cancelRender p tag th chapter => some (p, tag, .cancelRender th chapter)
  | .setWheel p tag e0 e1 e2 e3 => some (p, tag, .setWheel e0 e1 e2 e3)
  | .setLanes p tag lanes => some (p, tag, .setLanes lanes)
  | .setHoldLimit p tag seconds => some (p, tag, .setHoldLimit seconds)
  | .openRead p tag th chapter rendition => some (p, tag, .openRead th chapter rendition)
  | .readRange p tag th slot generation offset length => some (p, tag, .readRange th slot generation offset length)
  | .closeRead p tag th slot generation => some (p, tag, .closeRead th slot generation)
  | .titleInfo p tag th => some (p, tag, .titleInfo th)
  | .chapterInfo p tag th chapter => some (p, tag, .chapterInfo th chapter)
  | .takeInfo p tag th take first => some (p, tag, .takeInfo th take first)
  | .laneInfo p tag => some (p, tag, .laneInfo)
  | .popNotice p tag list => some (p, tag, .popNotice list)
  | .setNoticeMask p tag lists => some (p, tag, .setNoticeMask lists)
  | .deviceStatus p tag => some (p, tag, .deviceStatus)
  | .portReset p tag => some (p, tag, .portReset)
  | .deviceReset _ _ _ _ => none
  | .transaction _ _ _ => none
  | .portResetLine _ => none
  | .programCompletion _ => none
  | .programFault _ => none
  | .eraseStart => none
  | .eraseCompletion => none
  | .eraseFault => none
  | .fetchCompletion _ => none
  | .dispatch => none
  | .wheelSlot _ => none
  | .holdClockStep => none
  | .holdExpiry => none
  | .resetPinAsserted _ => none
  | .portResetLineRelease _ => none
  | .transactionBegin _ => none

/-- A well-formed command: its request's operands fit the frame, and a span ends less than a whole byte after its last one. -/
def Instr.wellFormed (i : Instr) : Bool :=
  match i.request? with
  | some (_, _, r) => r.wellFormed
  | none =>
    match i with
    | .transaction _ _ extraBits => decide (extraBits < 8)
    | _ => true

end Sys2Proof
end

