-- ==== Sys2Proof/Safety.lean ====
section
/-! DEFINITION. The terms that claims use: when a port takes a request, the part after a reply, the laws that every step keeps,
and what a safe run is. -/

namespace Sys2Proof.Machine

/-! ### When a port takes a request, and what it looks like afterwards -/

/-- R184, R190, R191: a frame that ends its span now is considered as a request. Either the span began while the port was IDLE,
or it begins and ends now, with the port IDLE, its reset line released and no device reset held. -/
def State.listens (s : State) (p : Port) : Prop :=
  (s.port p).span = some .idle ∨
  ((s.port p).span = none ∧ (s.port p).state = .idle ∧ (s.port p).resetLine = false ∧ s.resetHeld = none)

/-- R180: the role of the port accepts the class. -/
def State.allows (s : State) (p : Port) (c : RequestClass) : Prop := (s.port p).role.accepts c = true

/-- R73: a discard sequence of the port is in FIRST_SET or BOTH_SET, so a request that gives it up carries DISCARD_RESET. -/
def State.marked (s : State) (p : Port) : Bool := (s.port p).sequence.isSet

/-- R182, R183, R188: the part after port `p` was sent a frame of `k` operand bytes and has its reply in the store, its discard
sequence being `d`. The port sent the state byte of IDLE and zeros. -/
def State.replied (s : State) (p : Port) (tag : Byte) (k : Nat) (d : DiscardSeq) (gaveUp : Bool) (res : Result) : State :=
  (s.changePort p (fun q => { q with
    state := .replyReady,
    reply := some ⟨res.status, tag, { res.flags with discardReset := gaveUp }, res.results⟩,
    sequence := d, span := none, sent := 0x10#8 :: List.replicate (6 + k) 0#8 })).driveAttn

/-- The same with the discard sequence in NONE. -/
def State.answered (s : State) (p : Port) (tag : Byte) (k : Nat) (gaveUp : Bool) (res : Result) : State :=
  s.replied p tag k .none gaveUp res

/-- R182, R186: the part after port `p` was sent a frame of `k` operand bytes and executes its operation. -/
def State.executes (s : State) (p : Port) (tag : Byte) (k : Nat) (gaveUp : Bool) (w : Work) : State :=
  (s.changePort p (fun q => { q with
    state := .executing, operation := some ⟨tag, gaveUp, w⟩,
    sequence := .none, span := none, sent := 0x10#8 :: List.replicate (6 + k) 0#8 })).driveAttn

/-- R185: the request uses the title handle byte of its header. -/
def usesTitle : Request → Bool
  | .registerTitle _ => false
  | .setWheel _ _ _ _ => false
  | .setLanes _ => false
  | .setHoldLimit _ => false
  | .laneInfo => false
  | .popNotice _ => false
  | .setNoticeMask _ => false
  | .deviceStatus => false
  | .portReset => false
  | _ => true

/-- R11: the states of its title in which a request is refused LOCKED. -/
def lockedIn (st : TitleState) : Request → Bool
  | .setTitleParams _ _ _ => decide (st ≠ .opened)
  | .setProfile _ _ _ => decide (st ≠ .opened)
  | .setProfileCount _ _ => decide (st ≠ .opened)
  | .setRoomTone _ _ _ _ => decide (st ≠ .opened)
  | .clearRoomTone _ => decide (st ≠ .opened)
  | .defineChapter _ _ => decide (st ≠ .opened)
  | .deleteChapter _ _ => decide (st ≠ .opened)
  | .setChapterPads _ _ _ _ => decide (st ≠ .opened)
  | .insertSegment _ _ _ _ => decide (st ≠ .opened)
  | .replaceSegment _ _ _ _ => decide (st ≠ .opened)
  | .removeSegment _ _ _ => decide (st ≠ .opened)
  | .openTake _ => decide (st ≠ .opened)
  | .discardCommit _ => decide (st ≠ .opened)
  | .queueRender _ _ _ => decide (st = .final)
  | .holdTitle _ => decide (st = .final)
  | .releaseTitle _ => decide (st = .final)
  | _ => false

/-- The port a command belongs to; none for the events of the units inside the part and for a device reset. -/
def portOf (i : Instr) : Option Port :=
  match i.request? with
  | some (p, _, _) => some p
  | none =>
    match i with
    | .transaction p _ _ => some p
    | .transactionBegin p => some p
    | .portResetLine p => some p
    | .portResetLineRelease p => some p
    | .programCompletion p => some p
    | .programFault p => some p
    | .fetchCompletion p => some p
    | _ => none

/-- R191: the command is the beginning or the end of a device reset. -/
def resetsDevice : Instr → Bool
  | .deviceReset _ _ _ _ => true
  | .resetPinAsserted _ => true
  | _ => false

/-- R30, R34, R92: what the end of a render without a commit changes, for the render `r` of lane `i` with last end `e`: the lane,
the pages back in the pool in order, and the RESTORED entries of its STARVED encoders at every port. -/
def State.dropRender (s : State) (i : Fin 4) (r : Render) (e : LastEnd) : State :=
  { s with
    lanes := s.lanes.set i { enabled := (s.lanes.get i).enabled, render := none, lastEnd := some e },
    rendMem := { s.rendMem with pool := s.rendMem.pool ++ r.pages },
    ports := s.ports.notify (NoticeLists.postCrossings r.chapter (endedRestores r.stage.encoders)) }

/-- R35, R92, R93: what the failure of the render `r` of lane `i` changes. -/
def State.failedRender (s : State) (i : Fin 4) (r : Render) (cause : FailCause) (group position : Option Nat) : State :=
  { s with
    lanes := s.lanes.set i { enabled := (s.lanes.get i).enabled, render := none, lastEnd := some ⟨r.chapter, .failed,
      r.stage.laneState, some cause, group, position, none⟩ },
    rendMem := { s.rendMem with pool := s.rendMem.pool ++ r.pages },
    chapters := Tab.change s.chapters r.chapter.key (fun k => { k with state := .failed }),
    queue := { s.queue with count := s.queue.count - 1 },
    ports := s.ports.notify (fun l =>
      (l.postCrossings r.chapter (endedRestores r.stage.encoders)).postFailed r.chapter cause) }

/-! ### What the rules say of edits and commits, in their own words -/

/-- R9 step 3, R24 steps 5 and 6: the span lies within the take, and each entry of the group list that it touches is an owned
group. -/
def spanFits (t : Take) (start length : Nat) : Prop :=
  start + length ≤ t.sampleLength.getD 0 ∧
  ∀ i, start / 262144 ≤ i → i ≤ (start + length - 1) / 262144 → ∃ g, t.groups[i]? = some (some g)

/-- R24 steps 3 to 6: the fields of the segment, and its span in its take. -/
def segmentFits (t : Take) (g : Segment) : Prop :=
  1 ≤ g.length ∧ g.fadeIn ≤ 48000 ∧ g.fadeOut ≤ 48000 ∧ g.gap ≤ 240000 ∧ g.fadeIn + g.fadeOut ≤ g.length ∧
  spanFits t g.start g.length

/-- R29: the state after a taken edit, by the state before. -/
def stateAfterEdit : ChapterState → ChapterState
  | .queued | .measuring | .encoding | .commitWait => .queued
  | _ => .draft

/-- R29: the part after a taken edit that leaves the record `k'` and take memory `m`, but for a render. -/
def State.editedTo (s : State) (c : ChapterId) (k' : Chapter) (m : TakeMemory) : State :=
  { s with
    takeMem := m,
    chapters := Tab.put s.chapters c.key { k' with stale := k'.stale || k'.published, state := stateAfterEdit k'.state } }

/-- R30: the same where lane `i` held the render `r` of the chapter: it is aborted, and the chapter joins the tail of the FIFO of
its priority. -/
def State.abortedTo (s : State) (i : Fin 4) (r : Render) (c : ChapterId) (k' : Chapter) (m : TakeMemory) : State :=
  { (s.editedTo c k' m).dropRender i r ⟨c, .aborted, r.stage.laneState, none, none, none, none⟩ with
    queue := match k'.priority with
      | .rush => { s.queue with rush := s.queue.rush ++ [c] }
      | .normal => { s.queue with normal := s.queue.normal ++ [c] } }

/-- R31: the reply to a taken edit. -/
def editReply (k' : Chapter) : Result :=
  { status := .ok, flags := { stale := k'.stale || k'.published },
    results := [BitVec.ofNat 8 k'.state.code, BitVec.ofNat 8 (stateAfterEdit k'.state).code,
      BitVec.ofNat 8 k'.segments.length] ++ le 4 k'.length ++ le 4 (blockCount k'.length) }

/-- R29 to R31: what a taken edit of `n` operand bytes comes to, in a lane and out of one. `k'` is the record with the edit's own
changes and the state before. -/
def editTaken (s : State) (p : Port) (tag : Byte) (n : Nat) (c : ChapterId) (k' : Chapter) (m : TakeMemory)
    (out : Host.Outcome State Fault Refusal) : Prop :=
  (k'.state.inLane = false → out = .next ((s.editedTo c k' m).answered p tag n (s.marked p) (editReply k'))) ∧
  (∀ i r, k'.state.inLane = true → s.laneOf c = some i → (s.lanes.get i).render = some r →
    out = .next ((s.abortedTo i r c k' m).answered p tag n (s.marked p) (editReply k')))

/-- R33, R152: what the commit of the render `r` of lane `i` with serial `n` changes, `mem` being the page bytes afterwards. -/
def State.committedTo (s : State) (i : Fin 4) (r : Render) (n : Nat) (mem : Memory) : State :=
  { s with
    lanes := s.lanes.set i { enabled := (s.lanes.get i).enabled, render := none, lastEnd := some ⟨r.chapter, .committed,
      r.stage.laneState, none, none, none, some n⟩ },
    rendMem := {
      pool := s.rendMem.pool ++ s.rendMem.setPages r.chapter,
      sets := Tab.put s.rendMem.sets r.chapter.key
        ⟨n, r.stage.encoders.map (fun e => ⟨e.rendition, e.pages, e.byteCount⟩)⟩,
      mem := mem },
    chapters := Tab.change s.chapters r.chapter.key
      (fun k => { k with serial := n, published := true, stale := false, state := .done }),
    queue := { s.queue with count := s.queue.count - 1 },
    ports := s.ports.notify (fun l => l.postDone r.chapter n) }

/-- R148: the page bytes after a commit: the serial at image offsets 16 and 17 of every image, and nothing else. -/
def serialStored (old new : Memory) (es : List Encoder) (n : Nat) : Prop :=
  (∀ e ∈ es, ∀ g, e.pages.head? = some g →
    Memory.read new (g * 4096 + 16) = BitVec.ofNat 8 n ∧ Memory.read new (g * 4096 + 17) = BitVec.ofNat 8 (n / 256)) ∧
  (∀ a, (∀ e ∈ es, ∀ g, e.pages.head? = some g → a ≠ g * 4096 + 16 ∧ a ≠ g * 4096 + 17) →
    Memory.read new a = Memory.read old a)

/-- R20: the chapter index that a request resolves; none for a request that resolves none. -/
def chapterNamed : Request → Option Nat
  | .deleteChapter _ c => some c
  | .setChapterPads _ c _ _ => some c
  | .insertSegment _ c _ _ => some c
  | .replaceSegment _ c _ _ => some c
  | .removeSegment _ c _ => some c
  | .queueRender _ c _ => some c
  | .cancelRender _ c => some c
  | .openRead _ c _ => some c
  | _ => none

/-- R50: the take that a request resolves first of all after its title; none for a request that resolves none there. -/
def takeNamed : Request → Option Nat
  | .writeBlock _ t _ _ _ => some t
  | .closeTake _ t _ => some t
  | .takeInfo _ t _ => some t
  | .discardFirst _ t _ => some t
  | _ => none

/-- R158: the handle, slot and generation, that a request resolves. -/
def handleNamed : Request → Option (Nat × Nat)
  | .readRange _ slot generation _ _ => some (slot, generation)
  | .closeRead _ slot generation => some (slot, generation)
  | _ => none

/-- R5: the title-level changes. -/
def isTitleChange : Request → Bool
  | .setTitleParams _ _ _ => true
  | .setProfile _ _ _ => true
  | .setProfileCount _ _ => true
  | .setRoomTone _ _ _ _ => true
  | .clearRoomTone _ => true
  | _ => false

/-- R162: `t` is the part after the hold `h` in `slot` has ended: the slot is free, and if no other hold names a chapter that waits
for its commit, the commit is taken. -/
def holdEnded (s : State) (slot : Nat) (h : Hold) (t : State) : Prop :=
  let u : State := { s with holdTable := { s.holdTable with holds := Tab.drop s.holdTable.holds slot } }
  ((∃ e ∈ u.holdTable.holds, e.2.chapter = h.chapter) ∨ (∀ k, s.chapter? h.chapter = some k → k.state ≠ .commitWait) → t = u) ∧
  (∀ k i r, (∀ e ∈ u.holdTable.holds, e.2.chapter ≠ h.chapter) → s.chapter? h.chapter = some k → k.state = .commitWait →
    s.laneOf h.chapter = some i → (s.lanes.get i).render = some r →
    ∃ mem, t = u.committedTo i r (if k.serial = 0 ∨ k.serial = 65535 then 1 else k.serial + 1) mem ∧
      serialStored s.rendMem.mem mem r.stage.encoders (if k.serial = 0 ∨ k.serial = 65535 then 1 else k.serial + 1))

/-- R168: `t` is the part after the holds of a list, each with its slot, have ended one after the other. -/
def holdsEnded : State → List (Nat × Hold) → State → Prop
  | s, [], t => t = s
  | s, e :: es, t => ∃ u, holdEnded s e.1 e.2 u ∧ holdsEnded u es t

/-- R168: the holds that a reset of port `p` ends at once, in ascending slot number: its own with no read in flight. -/
def State.endsAtReset (s : State) (p : Port) : List (Nat × Hold) :=
  s.holdTable.holds.filter (fun e => decide (e.2.owner = p) && e.2.read.isNone)

/-- R183: the bytes that a transaction of port `p` had sent when a reset cuts it off: as many as had been clocked (a free value),
which are the state byte and, in REPLY_READY, the reply frame, and then 0x00. One that a device reset had cut off before has sent
free bytes since then (log entry 7). -/
def clockedOut (p : Port) (q : PortRecord) (sp : Span) : List Byte :=
  let n := Config.clockedBefore p q.cuts
  match sp with
  | .idle => (0x10#8 :: List.replicate n 0#8).take n
  | .executing => (0x20#8 :: List.replicate n 0#8).take n
  | .replyReady => (0x30#8 :: ((match q.reply with | none => [] | some r => r.bytes) ++ List.replicate n 0#8)).take n
  | .muted => List.replicate n 0#8
  | .abandoned sent => (sent ++ List.replicate n 0#8).take n
  | .lost sent => sent ++ (List.range n).map (Config.lostByte p q.cuts)

/-- R190, log entry 7: the transaction of port `p` after an assertion of its reset line. -/
def spanUnderLine (p : Port) (q : PortRecord) : Option Span :=
  q.span.map (fun sp => match sp with
    | .muted => .muted
    | .abandoned sent => .abandoned sent
    | sp => .abandoned (clockedOut p q sp))

/-- R191, log entries 7 and 11: the transaction of port `p` after the beginning or the end of a device reset. -/
def spanUnderReset (p : Port) (q : PortRecord) : Option Span :=
  q.span.map (fun sp => match sp with
    | .muted => .muted
    | .abandoned sent => .abandoned sent
    | .lost sent => .lost sent
    | sp => .lost (clockedOut p q sp))

/-- R168, R178, R189: what a reset of port `p` leaves. Its lists are emptied before its holds end, so that only DONE entries of
commits that those ends release can stand in them; each chapter that waited for holds of the port alone is committed; and where
no chapter waits for a commit, no other block changes. -/
def portResetLeaves (s t : State) (p : Port) : Prop :=
  t.holdTable = { s.holdTable with
    holds := s.holdTable.holds.filter (fun e => !(decide (e.2.owner = p) && e.2.read.isNone)) } ∧
  (t.port p).mask = ⟨false, false, false, false, false⟩ ∧ (t.port p).sequence = .none ∧ (t.port p).lists.failed = [] ∧
  (t.port p).lists.starved = [] ∧ (t.port p).lists.restored = [] ∧ (t.port p).lists.expired = [] ∧
  t.titles = s.titles ∧ t.takeMem = s.takeMem ∧ t.wheel = s.wheel ∧ t.cause = s.cause ∧ t.resetHeld = s.resetHeld ∧
  (∀ q, q ≠ p → (t.port q).mask = (s.port q).mask ∧ (t.port q).sequence = (s.port q).sequence ∧
    (t.port q).lists.failed = (s.port q).lists.failed ∧ (t.port q).lists.starved = (s.port q).lists.starved ∧
    (t.port q).lists.restored = (s.port q).lists.restored ∧ (t.port q).lists.expired = (s.port q).lists.expired) ∧
  ((∀ e ∈ s.chapters, e.2.state ≠ .commitWait) →
    (t.port p).lists.done = [] ∧ (∀ q, q ≠ p → (t.port q).lists = (s.port q).lists) ∧
    t.chapters = s.chapters ∧ t.queue = s.queue ∧ t.lanes = s.lanes ∧ t.rendMem = s.rendMem) ∧
  (∀ c k i, s.chapter? c = some k → k.state = .commitWait → s.laneOf c = some i → c.index ≤ 127 →
    (∀ e ∈ s.holdTable.holds, e.2.chapter.index ≤ 127) → (∃ e ∈ s.holdTable.holds, e.2.chapter = c) →
    (∀ e ∈ s.holdTable.holds, e.2.chapter = c → e.2.owner = p ∧ e.2.read = none) →
    (t.lanes.get i).render = none ∧ ∃ k', t.chapter? c = some k' ∧ k'.state = .done ∧ k'.published = true ∧ k'.stale = false ∧
      k'.serial = (if k.serial = 0 ∨ k.serial = 65535 then 1 else k.serial + 1))

/-- R143: the address of image offset `o` in an image with this page list; none past its last page. -/
def imageAddress (pages : List Nat) (o : Nat) : Option Nat := (pages[o / 4096]?).map (fun g => g * 4096 + o % 4096)

/-- R143: bytes stand in an image from offset `off` on. -/
def stored (m : Memory) (pages : List Nat) (off : Nat) (bs : List Byte) : Prop :=
  ∀ j a, j < bs.length → imageAddress pages (off + j) = some a → Memory.read m a = bs.getD j 0

/-- R187: the class byte, the code and the operand length of each request. -/
def frameRow : Request → Nat × Nat × Nat
  | .openTake _ => (1, 1, 0)
  | .writeBlock _ _ _ _ _ => (1, 2, 3080)
  | .closeTake _ _ _ => (1, 3, 4)
  | .discardFirst _ _ _ => (1, 4, 4)
  | .discardLast _ _ _ => (1, 5, 4)
  | .discardCommit _ => (1, 6, 0)
  | .registerTitle _ => (2, 1, 8)
  | .setTitleParams _ _ _ => (2, 2, 11)
  | .setProfile _ _ _ => (2, 3, 12)
  | .setProfileCount _ _ => (2, 4, 1)
  | .setRoomTone _ _ _ _ => (2, 5, 10)
  | .clearRoomTone _ => (2, 6, 0)
  | .holdTitle _ => (2, 7, 0)
  | .releaseTitle _ => (2, 8, 0)
  | .finalizeTitle _ => (2, 9, 0)
  | .retireTitle _ => (2, 10, 0)
  | .defineChapter _ _ => (2, 11, 1)
  | .deleteChapter _ _ => (2, 12, 1)
  | .setChapterPads _ _ _ _ => (2, 13, 9)
  | .insertSegment _ _ _ _ => (2, 14, 20)
  | .replaceSegment _ _ _ _ => (2, 15, 20)
  | .removeSegment _ _ _ => (2, 16, 2)
  | .queueRender _ _ _ => (3, 1, 2)
  | .cancelRender _ _ => (3, 2, 1)
  | .setWheel _ _ _ _ => (3, 3, 4)
  | .setLanes _ => (3, 4, 1)
  | .setHoldLimit _ => (3, 5, 2)
  | .openRead _ _ _ => (4, 1, 2)
  | .readRange _ _ _ _ _ => (4, 2, 8)
  | .closeRead _ _ _ => (4, 3, 2)
  | .titleInfo _ => (5, 1, 0)
  | .chapterInfo _ _ => (5, 2, 1)
  | .takeInfo _ _ _ => (5, 3, 4)
  | .laneInfo => (5, 4, 0)
  | .popNotice _ => (5, 5, 1)
  | .setNoticeMask _ => (5, 6, 1)
  | .deviceStatus => (5, 7, 0)
  | .portReset => (5, 8, 0)

/-- R85: the wheel after a slot. -/
def wheelAfter (w : Wheel) : Wheel :=
  if w.slot = 3 then ⟨w.pending.getD w.pattern, none, 0⟩ else { w with slot := w.slot + 1 }

/-! ### The laws that every step keeps -/

/-- R177, R191: every ATTN output is as its port's lists and mask say, and deasserted while a device reset is held. -/
def State.AttnLaw (s : State) : Prop :=
  ∀ p : Port, (s.port p).attn = (s.resetHeld.isNone && (s.port p).lists.selected (s.port p).mask)

/-- Both memories are in their canonical form. -/
def State.MemoryLaw (s : State) : Prop := Memory.wf s.takeMem.mem = true ∧ Memory.wf s.rendMem.mem = true

/-- The numbers of all five tables strictly rise: titles, chapters, takes, published sets and holds. -/
def State.TableLaw (s : State) : Prop :=
  Tab.wf s.titles = true ∧ Tab.wf s.chapters = true ∧ Tab.wf s.takeMem.takes = true ∧ Tab.wf s.rendMem.sets = true ∧
  Tab.wf s.holdTable.holds = true

/-- The places of R42 one after the other: clean pool, dirty list, Erase Engine, bad set, and the group lists of the takes. -/
def TakeMemory.places (m : TakeMemory) : List Nat :=
  m.clean ++ m.dirty ++ m.engine.toList ++ m.bad ++ m.takes.flatMap (fun e => e.2.owned)

/-- R42: each of the 32,768 groups is in exactly one place, and there once. -/
def State.GroupLaw (s : State) : Prop := Tab.wf s.takeMem.takes = true ∧ s.takeMem.places.Perm (List.range 32768)

/-- R41: the group map agrees with the places of the groups: the state of each record names its place, owner and index are those of
its entry in a take's list, and a group that no take owns has neither them nor the faulted mark. -/
def State.MapLaw (s : State) : Prop :=
  s.takeMem.groups.length = 32768 ∧
  ∀ g, g < 32768 →
    ((s.takeMem.group g).state = .clean ↔ g ∈ s.takeMem.clean) ∧ ((s.takeMem.group g).state = .dirty ↔ g ∈ s.takeMem.dirty) ∧
    ((s.takeMem.group g).state = .erasing ↔ s.takeMem.engine = some g) ∧
    ((s.takeMem.group g).state = .bad ↔ g ∈ s.takeMem.bad) ∧
    (∀ id i, ((s.takeMem.group g).owner = some id ∧ (s.takeMem.group g).index = some i) ↔
      ∃ t, Tab.look s.takeMem.takes id = some t ∧ t.groups[i]? = some (some g)) ∧
    ((s.takeMem.group g).state = .owned ↔ ((s.takeMem.group g).owner ≠ none ∧ (s.takeMem.group g).index ≠ none)) ∧
    ((s.takeMem.group g).state ≠ .owned →
      (s.takeMem.group g).owner = none ∧ (s.takeMem.group g).index = none ∧ (s.takeMem.group g).faulted = false)

/-- R18, R49: a port that executes a block program names a RECORDING take whose program in flight is that block, and no two ports
name the same take. -/
def State.ProgramLaw (s : State) : Prop :=
  (∀ p o take block data, (s.port p).operation = some o → o.work = .program take block data →
    ∃ t, Tab.look s.takeMem.takes take = some t ∧ t.state = .recording ∧ t.inFlight = some block) ∧
  (∀ p q o u take b b' d d', (s.port p).operation = some o → (s.port q).operation = some u →
    o.work = .program take b d → u.work = .program take b' d' → p = q)

/-- R9, R24: every segment of a chapter and every room-tone span of a title fits a take of that title that is not RECORDING. -/
def State.SpanLaw (s : State) : Prop :=
  (∀ e ∈ s.chapters, ∀ g ∈ e.2.segments, ∃ t, s.take? (e.1 / 128) g.take = some t ∧ t.state ≠ .recording ∧ segmentFits t g) ∧
  (∀ e ∈ s.titles, ∀ r, e.2.roomTone = some r → ∃ t, s.take? e.1 r.take = some t ∧ t.state ≠ .recording ∧
    4800 ≤ r.length ∧ r.length ≤ 96000 ∧ spanFits t r.start r.length)

/-- R64: the groups that the segments of all chapters and the room-tone spans of all titles touch, once for each. -/
def State.references (s : State) : List Nat :=
  s.chapters.flatMap (fun e => e.2.segments.flatMap s.takeMem.segmentGroups) ++
    s.titles.flatMap (fun e => s.takeMem.toneGroups e.2.roomTone)

/-- R64: the reference count of each group is the number of segments and room-tone spans that touch it. -/
def State.CountLaw (s : State) : Prop :=
  s.takeMem.groups.length = 32768 ∧ ∀ g, g < 32768 → (s.takeMem.group g).refs = s.references.count g

/-- R19, R151: the published flag is set exactly when the render serial is nonzero, and exactly then the chapter has a published set,
with that serial; the stale flag is clear where the published flag is; and there is no set without a chapter. -/
def State.PublishedLaw (s : State) : Prop :=
  (∀ n k, Tab.look s.chapters n = some k →
    (k.published = true ↔ k.serial ≠ 0) ∧ k.serial ≤ 65535 ∧ (k.stale = true → k.published = true) ∧
    (k.published = true → ∃ set, Tab.look s.rendMem.sets n = some set ∧ set.serial = k.serial) ∧
    (k.published = false → Tab.look s.rendMem.sets n = none)) ∧
  (∀ n set, Tab.look s.rendMem.sets n = some set → ∃ k, Tab.look s.chapters n = some k)

/-- R154: the image that a hold names is published with the serial of the hold, which is the serial of its chapter. -/
def State.HoldLaw (s : State) : Prop :=
  ∀ e ∈ s.holdTable.holds, e.2.chapter.index ≤ 127 ∧ ∃ k set im, s.chapter? e.2.chapter = some k ∧ k.published = true ∧
    k.serial = e.2.serial ∧ Tab.look s.rendMem.sets e.2.chapter.key = some set ∧ set.serial = e.2.serial ∧
    set.image? e.2.rendition = some im

/-- The pages of the image in progress of every lane. -/
def State.lanePages (s : State) : List Nat :=
  s.lanes.toList.flatMap (fun l => match l.render with | none => [] | some r => r.pages)

/-- Every page by where it is: the pool, the published images and the images in progress (R150). -/
def State.allPages (s : State) : List Nat := s.rendMem.pool ++ s.rendMem.sets.flatMap (fun e => e.2.pages) ++ s.lanePages

/-- R150: each of the 1,048,576 pages is in the pool or in the page list of exactly one image, and there once. -/
def State.PageLaw (s : State) : Prop := Tab.wf s.rendMem.sets = true ∧ s.allPages.Perm (List.range 1048576)

/-- R169: no list of a port holds a key twice, and no rendition key is in both STARVED and RESTORED. -/
def NoticeLists.KeyLaw (l : NoticeLists) : Prop :=
  (l.done.map (fun e => e.chapter)).Nodup ∧ (l.failed.map (fun e => e.chapter)).Nodup ∧
  (l.starved.map (fun e => (e.chapter, e.rendition)) ++ l.restored.map (fun e => (e.chapter, e.rendition))).Nodup ∧
  (l.expired.map (fun e => e.slot)).Nodup

/-- R169 at every port. -/
def State.NoticeLaw (s : State) : Prop := ∀ p : Port, (s.port p).lists.KeyLaw

/-- A transaction that sends 0x00 to its end: begun under PRST, or abandoned by it (R190). -/
def Span.silent : Span → Bool
  | .muted => true
  | .abandoned _ => true
  | _ => false

/-- R182: a reply is present exactly in REPLY_READY, an operation exactly in EXECUTING, and the discard mark is set in EXECUTING
alone; a transaction that began in IDLE or in REPLY_READY finds the port in that state until it ends. R190: while the line is held
asserted, a transaction in progress is one that sends 0x00 from the assertion on. -/
def PortRecord.PortLaw (r : PortRecord) : Prop :=
  (r.reply.isSome = true ↔ r.state = .replyReady) ∧ (r.operation.isSome = true ↔ r.state = .executing) ∧
  (r.discardMark = true → r.state = .executing) ∧
  (r.span = some .idle → r.state = .idle) ∧ (r.span = some .replyReady → r.state = .replyReady) ∧
  (r.resetLine = true → r.span.all Span.silent = true)

/-- R182 and R190 at every port. -/
def State.PortLaw (s : State) : Prop := ∀ p : Port, (s.port p).PortLaw

/-- The chapters that the lanes hold. -/
def State.laneChapters (s : State) : List ChapterId :=
  s.lanes.toList.flatMap (fun l => match l.render with | none => [] | some r => [r.chapter])

/-- R84: the state of the chapter that a lane holds. -/
def Stage.chapterState : Stage → ChapterState
  | .measure _ _ => .measuring
  | .encode _ _ _ _ => .encoding
  | .commitWait _ _ _ => .commitWait

/-- R76, R77, R83: the chapters QUEUED with a priority are exactly the entries of the FIFO it names, a chapter is in a lane exactly
when a lane holds it in the state of its pass, no chapter is in two places or twice in one, and the count is the number of all of
them, at most 64. -/
def State.RenderLaw (s : State) : Prop :=
  Tab.wf s.chapters = true ∧ (s.queue.rush ++ (s.queue.normal ++ s.laneChapters)).Nodup ∧
  (∀ c ∈ s.queue.rush ++ (s.queue.normal ++ s.laneChapters), c.index ≤ 127) ∧
  (∀ c k, c.index ≤ 127 → s.chapter? c = some k →
    ((k.state = .queued ∧ k.priority = .rush) ↔ c ∈ s.queue.rush) ∧
    ((k.state = .queued ∧ k.priority = .normal) ↔ c ∈ s.queue.normal) ∧
    (k.state.inLane = true ↔ c ∈ s.laneChapters)) ∧
  (∀ c ∈ s.queue.rush ++ (s.queue.normal ++ s.laneChapters), s.chapter? c ≠ none) ∧
  (∀ i r k, (s.lanes.get i).render = some r → s.chapter? r.chapter = some k → k.state = r.stage.chapterState) ∧
  s.queue.count = s.queue.rush.length + s.queue.normal.length + s.laneChapters.length ∧ s.queue.count ≤ 64

/-- R62, R99: the value of a source, by the bytes that take memory holds: 0, or the stored sample under the weight of its fade. -/
def sourceValue (m : TakeMemory) : Source → Int
  | .zero => 0
  | .sample take index weight =>
    match m.blockGroup take (index / 1024) with
    | none => 0
    | some g =>
      let b := fun k => Memory.read m.mem ((g * 256 + index / 1024 % 256) * 3072 + 3 * (index % 1024) + k)
      let x := (BitVec.ofNat 24 ((b 0).toNat + 256 * ((b 1).toNat + 256 * (b 2).toNat))).toInt
      match weight with
      | none => x
      | some w => x * (w : Int) / 65536

/-- R97: the held take block is the block of its take as take memory holds it. -/
def heldTrue (m : TakeMemory) : Option HeldBlock → Prop
  | none => True
  | some h => ∃ g, m.blockGroup h.take h.block = some g ∧ h.samples = storedSamples m.mem g (h.block % 256)

/-! ### Safe runs -/

/-- The step stops nowhere: it answers a next state. -/
def State.stepSafe (s : State) : Prop := ∃ t, step s = .next t

/-- A run of `n` steps in which every step answers a next state. -/
def State.runSafe : Nat → State → Prop
  | 0, _ => True
  | n + 1, s => ∃ t, step s = .next t ∧ State.runSafe n t

end Sys2Proof.Machine
end

