-- ==== Sys2Proof/Certificates/Slice0/Obligations.lean ====
section
/-! DEFINITION. The statements for the provers. Each is about every state, every port, every tag and every operand that its
premises admit. Where a statement ends in an equation of whole states, the equation is its frame: what it does not name is as
before, the bytes of both memories included. The words `listens`, `allows`, `answered`, `executes` and the laws are those of
Safety.lean; the numbers in the result bytes are written from R187. -/

open Sys2Proof Sys2Proof.Machine

/-! ### The queue, the frames and the ports -/

/-- The step runs the command at the front of the queue with the queue's rest. -/
def Obligations.StepRunsFrontCommand : Prop :=
  ∀ (c : Instr) (rest : List Instr) (s : State), s.pending = c :: rest → step s = exec c { s with pending := rest }

/-- Every command answers a next state and leaves the queue as it found it, but for a wheel slot whose lane read names no owned
group (the stop that 03 Lane reads rules out). No command is refused. -/
def Obligations.EveryCommandCompletes : Prop :=
  ∀ (i : Instr) (s : State),
    (∃ t, exec i s = .next t ∧ t.pending = s.pending) ∨ (∃ f, i = .wheelSlot f ∧ exec i s = .fault .strayLaneRead)

/-- DEVICE_RESET: every block takes the values its chapter gives for device reset, whatever the state before. The reset cause is as
given, and each port's role is that of its straps, with the classes that the role accepts. The queue, which is the model's own,
stays. That DEVICE_RESET may come without a RESET_PIN_ASSERTED before it is the model's choice (log entry 11). -/
def Obligations.DeviceResetValues : Prop :=
  (∀ c : RequestClass,
    (Role.accepts .ingest c = true ↔ c = .take ∨ c = .query) ∧
    (Role.accepts .edit c = true ↔ c = .plan ∨ c = .render ∨ c = .read ∨ c = .query) ∧
    (Role.accepts .delivery c = true ↔ c = .read ∨ c = .query) ∧ Role.accepts .full c = true) ∧
  ∀ (cause : ResetCause) (sa sb sc : Straps) (s : State), ∃ t,
    exec (.deviceReset cause sa sb sc) s = .next t ∧
    t.titles = [] ∧ t.chapters = [] ∧
    t.takeMem.groups = List.replicate 32768 ⟨.dirty, none, none, 0, false⟩ ∧ t.takeMem.dirty = List.range 32768 ∧
    t.takeMem.clean = [] ∧ t.takeMem.engine = none ∧ t.takeMem.bad = [] ∧ t.takeMem.takes = [] ∧ t.takeMem.scrub = true ∧
    t.queue = ⟨[], [], 0⟩ ∧
    t.lanes = ⟨⟨true, none, none⟩, ⟨false, none, none⟩, ⟨false, none, none⟩, ⟨false, none, none⟩⟩ ∧
    t.wheel = ⟨⟨some 0, some 0, some 0, some 0⟩, none, 0⟩ ∧
    t.rendMem.pool = List.range 1048576 ∧ t.rendMem.sets = [] ∧
    t.holdTable = ⟨List.replicate 16 0, [], 10⟩ ∧
    t.cause = (if s.resetHeld = some .powerOn then .powerOn else cause) ∧ t.resetHeld = none ∧ t.pending = s.pending ∧
    ∀ p : Port,
      let straps := match p with | .a => sa | .b => sb | .c => sc
      (t.port p).role = (match straps.strap1, straps.strap0 with
        | false, false => .ingest
        | false, true => .edit
        | true, false => .delivery
        | true, true => .full) ∧
      (t.port p).state = .idle ∧ (t.port p).reply = none ∧ (t.port p).operation = none ∧ (t.port p).discardMark = false ∧
      (t.port p).sequence = .none ∧ (t.port p).mask = ⟨false, false, false, false, false⟩ ∧
      (t.port p).lists = ⟨[], [], [], [], []⟩ ∧ (t.port p).attn = false

/-- Reading the frame of a well-formed request gives that request with its tag. -/
def Obligations.FrameReadsBack : Prop :=
  ∀ (tag : Byte) (r : Request), r.wellFormed = true → receive (requestFrame tag r) = .request tag r

/-- TRANSACTION: a span that carries the frame of a well-formed request, whatever its first byte and the bits after its last, is
the request's own command. That a request's command is the whole span of its frame is the model's choice (log entry 10). -/
def Obligations.TransactionIsItsRequest : Prop :=
  ∀ (i : Instr) (p : Port) (tag first : Byte) (r : Request) (x : Nat) (s : State),
    i.request? = some (p, tag, r) → r.wellFormed = true → exec (.transaction p (first :: requestFrame tag r) x) s = exec i s

/-- TRANSACTION: a frame that is cut short, and any frame at a port that is EXECUTING when the span begins, is no request: the
part sends its state byte and zeros, and nothing else changes. A request's command at an EXECUTING port is such a span, since the
model takes a request's command as the whole span of its frame (log entry 10, the model's choice). -/
def Obligations.FramesDiscarded : Prop :=
  (∀ (p : Port) (rx : List Byte) (x : Nat) (s : State), s.listens p →
    rx.length < 7 ∨ rx.length < 7 + fieldAt rx 5 2 →
    exec (.transaction p rx x) s =
      .next (s.changePort p (fun q =>
        { q with span := none, sent := (0x10#8 :: List.replicate rx.length 0#8).take rx.length })).driveAttn) ∧
  (∀ (p : Port) (rx : List Byte) (x : Nat) (s : State), (s.port p).span = none → (s.port p).state = .executing →
    (s.port p).resetLine = false → s.resetHeld = none →
    exec (.transaction p rx x) s =
      .next (s.changePort p (fun q => { q with sent := (0x20#8 :: List.replicate rx.length 0#8).take rx.length })).driveAttn) ∧
  (∀ (i : Instr) (p : Port) (tag : Byte) (r : Request) (s : State), i.request? = some (p, tag, r) →
    (s.port p).span = none → (s.port p).state = .executing → (s.port p).resetLine = false → s.resetHeld = none →
    exec i s = .next (s.changePort p (fun q =>
      { q with sent := 0x20#8 :: List.replicate (6 + operandLength r) 0#8 })).driveAttn)

/-- TRANSACTION at a port with a reply: 0x30, the reply frame from its first byte and zeros are sent. A span long enough for the
whole reply returns the port to IDLE and empties the store; a shorter one leaves both. The bytes received are discarded. The reply
frame is its status code, its tag, its flags, the length of its results and the results. -/
def Obligations.ReplyCollected : Prop :=
  ∀ (p : Port) (rx : List Byte) (x : Nat) (s : State) (rep : Reply),
    (s.port p).reply = some rep →
    ((s.port p).span = some .replyReady ∨
      ((s.port p).span = none ∧ (s.port p).state = .replyReady ∧ (s.port p).resetLine = false ∧ s.resetHeld = none)) →
    (let code : Byte := match rep.status with
        | .ok => 0x00
        | .class_ => 0x01
        | .malformed => 0x02
        | .badHandle => 0x03
        | .badState => 0x04
        | .range => 0x05
        | .full => 0x06
        | .notReady => 0x07
        | .locked => 0x08
        | .busy => 0x09
        | .crcError => 0x0A
        | .seqMismatch => 0x0B
        | .sequence => 0x0C
        | .tooLate => 0x0D
        | .programFault => 0x0E
      let bit := fun (b : Bool) (n : Nat) => if b then 2 ^ n else 0
      rep.bytes = code :: rep.tag ::
        BitVec.ofNat 8 (bit rep.flags.discardReset 0 + bit rep.flags.stale 1 + bit rep.flags.clamped 2 + bit rep.flags.skipped 3 +
          bit rep.flags.existing 4 + bit rep.flags.freed 5 + bit rep.flags.empty 6) ::
        BitVec.ofNat 8 rep.results.length :: BitVec.ofNat 8 (rep.results.length / 256) :: rep.results) ∧
    exec (.transaction p rx x) s =
      .next (s.changePort p (fun q =>
        { q with
          state := if 6 + rep.results.length ≤ rx.length then .idle else q.state,
          reply := if 6 + rep.results.length ≤ rx.length then none else some rep,
          span := none,
          sent := (0x30#8 :: (rep.bytes ++ List.replicate rx.length 0#8)).take rx.length })).driveAttn

/-- TRANSACTION_BEGIN: the span that begins is decided by the state of the port then, and by the reset lines; nothing else
changes. That a span in progress goes on is the model's choice (log entry 10), and that one begun while a device reset is held is
lost, but for a port whose own line is asserted, is its inference (log entry 11). -/
def Obligations.TransactionBegins : Prop :=
  ∀ (p : Port) (s : State),
    exec (.transactionBegin p) s =
      .next (s.changePort p (fun q =>
        { q with span := some (match q.span with
          | some sp => sp
          | none =>
            if q.resetLine then .muted
            else if s.resetHeld ≠ none then .lost []
            else match q.state with
              | .idle => .idle
              | .executing => .executing
              | .replyReady => .replyReady) })).driveAttn

/-- The checks ahead of a title's state. MALFORMED: a whole frame with an operand length above 3,200, with more bytes than its operand
length, or whose class, code and operand length name no request. Which classes, codes and operand lengths name one, and which, and
the header of each request's frame. CLASS: a request of a class that the port's role does not accept, whatever its title handle and
operands. BAD_HANDLE: a title handle of 0, above 4 or of a FREE record. Nothing else changes but a discard sequence given up. -/
def Obligations.RefusedBeforeTheTitle : Prop :=
  ((∀ (p : Port) (first cls code tag th l0 l1 : Byte) (bs : List Byte) (x : Nat) (s : State), s.listens p →
     l0.toNat + 256 * l1.toNat ≤ bs.length →
     3200 < l0.toNat + 256 * l1.toNat ∨ l0.toNat + 256 * l1.toNat < bs.length ∨
       readRequest cls.toNat code.toNat th.toNat bs = none →
     exec (.transaction p (first :: cls :: code :: tag :: th :: l0 :: l1 :: bs) x) s =
       .next (s.answered p tag bs.length (s.marked p) { status := .malformed })) ∧
   (∀ (cls code th : Nat) (bs : List Byte), readRequest cls code th bs ≠ none ↔ (cls, code, bs.length) ∈
     [(1, 1, 0), (1, 2, 3080), (1, 3, 4), (1, 4, 4), (1, 5, 4), (1, 6, 0),
      (2, 1, 8), (2, 2, 11), (2, 3, 12), (2, 4, 1), (2, 5, 10), (2, 6, 0), (2, 7, 0), (2, 8, 0), (2, 9, 0), (2, 10, 0),
      (2, 11, 1), (2, 12, 1), (2, 13, 9), (2, 14, 20), (2, 15, 20), (2, 16, 2),
      (3, 1, 2), (3, 2, 1), (3, 3, 4), (3, 4, 1), (3, 5, 2), (4, 1, 2), (4, 2, 8), (4, 3, 2),
      (5, 1, 0), (5, 2, 1), (5, 3, 4), (5, 4, 0), (5, 5, 1), (5, 6, 1), (5, 7, 0), (5, 8, 0)]) ∧
   (∀ (cls code th : Nat) (bs : List Byte) (r : Request), readRequest cls code th bs = some r →
     (cls, code, bs.length) = frameRow r ∧ (usesTitle r = true → titleByte r = th)) ∧
   (∀ (tag : Byte) (r : Request), r.wellFormed = true →
     requestFrame tag r = BitVec.ofNat 8 (frameRow r).1 :: BitVec.ofNat 8 (frameRow r).2.1 :: tag ::
       BitVec.ofNat 8 (if usesTitle r then titleByte r else 0) :: BitVec.ofNat 8 (frameRow r).2.2 ::
       BitVec.ofNat 8 ((frameRow r).2.2 / 256) :: operandBytes r ∧ (operandBytes r).length = (frameRow r).2.2)) ∧
  (∀ (i : Instr) (p : Port) (tag : Byte) (r : Request) (s : State), i.request? = some (p, tag, r) → s.listens p →
     formatOk r = true → ¬ s.allows p (requestClass r) →
     exec i s = .next (s.answered p tag (operandLength r) (s.marked p) { status := .class_ })) ∧
  (∀ (i : Instr) (p : Port) (tag : Byte) (r : Request) (s : State), i.request? = some (p, tag, r) → s.listens p →
     formatOk r = true → s.allows p (requestClass r) → usesTitle r = true →
     titleByte r = 0 ∨ 4 < titleByte r ∨ Tab.look s.titles (titleByte r) = none →
     exec i s = .next (s.answered p tag (operandLength r) (s.marked p) { status := .badHandle }))

/-- LOCKED: a request that its title's state refuses. BUSY: a title-level change of an OPEN title with a chapter in a lane. Nothing else
changes but a discard sequence given up. -/
def Obligations.RefusedByTheTitle : Prop :=
  (∀ (i : Instr) (p : Port) (tag : Byte) (r : Request) (s : State) (t : Title), i.request? = some (p, tag, r) →
     s.listens p → s.allows p (requestClass r) → s.title? (titleByte r) = some t → lockedIn t.state r = true →
     exec i s = .next (s.answered p tag (operandLength r) (s.marked p) { status := .locked })) ∧
  (∀ (i : Instr) (p : Port) (tag : Byte) (r : Request) (s : State) (t : Title) (e : Nat × Chapter),
     i.request? = some (p, tag, r) → s.listens p → s.allows p .plan → isTitleChange r = true →
     s.title? (titleByte r) = some t → t.state = .opened → e ∈ s.chapters → e.1 / 128 = titleByte r →
     e.2.state = .measuring ∨ e.2.state = .encoding ∨ e.2.state = .commitWait →
     exec i s = .next (s.answered p tag (operandLength r) (s.marked p) { status := .busy }))

/-- Whatever refuses a request, and whichever request it is: when the reply put in the store is not OK, the refusal has changed
nothing but the port's own reply, state and discard sequence. -/
def Obligations.RefusalChangesNothing : Prop :=
  ∀ (i : Instr) (p : Port) (tag : Byte) (r : Request) (s t : State) (rep : Reply), i.request? = some (p, tag, r) →
    s.listens p → exec i s = .next t → (t.port p).state = .replyReady → (t.port p).reply = some rep → rep.status ≠ .ok →
    t = s.answered p tag (operandLength r) (s.marked p) ⟨rep.status, { rep.flags with discardReset := false }, rep.results⟩

/-- A command leaves every port it does not belong to with its role, state, reply, operation, discard mark, mask, reset line and
transaction, unless it is a device reset; and no command but the end of a device reset changes any role. -/
def Obligations.PortsIndependent : Prop :=
  (∀ (i : Instr) (q : Port) (s t : State), portOf i ≠ some q → resetsDevice i = false → exec i s = .next t →
    (t.port q).role = (s.port q).role ∧ (t.port q).state = (s.port q).state ∧ (t.port q).reply = (s.port q).reply ∧
    (t.port q).operation = (s.port q).operation ∧ (t.port q).discardMark = (s.port q).discardMark ∧
    (t.port q).mask = (s.port q).mask ∧ (t.port q).resetLine = (s.port q).resetLine ∧
    (t.port q).span = (s.port q).span ∧ (t.port q).sent = (s.port q).sent) ∧
  (∀ (i : Instr) (q : Port) (s t : State), (∀ c sa sb sc, i ≠ .deviceReset c sa sb sc) → exec i s = .next t →
    (t.port q).role = (s.port q).role)

/-! ### Titles -/

/-- REGISTER-TITLE: RANGE for catalogue number 0; the handle and state of the record that holds the number, unchanged; FULL; or a
new record with the default fields at the lowest FREE handle. -/
def Obligations.RegisterTitle : Prop :=
  ∀ (p : Port) (tag : Byte) (n : Nat) (s : State), s.listens p → s.allows p .plan →
    (n = 0 → exec (.registerTitle p tag n) s = .next (s.answered p tag 8 (s.marked p) { status := .range })) ∧
    (∀ h t, n ≠ 0 → s.title? h = some t → t.catalogue = n →
      (∀ h' t', h' < h → s.title? h' = some t' → t'.catalogue ≠ n) →
      exec (.registerTitle p tag n) s = .next (s.answered p tag 8 (s.marked p)
        { status := .ok, flags := { existing := true },
          results := [BitVec.ofNat 8 h, match t.state with | .opened => 1#8 | .held => 2#8 | .final => 3#8] })) ∧
    (n ≠ 0 → (∀ h t, s.title? h = some t → t.catalogue ≠ n) →
      ((∀ h, 1 ≤ h → h ≤ 4 → s.title? h ≠ none) →
        exec (.registerTitle p tag n) s = .next (s.answered p tag 8 (s.marked p) { status := .full })) ∧
      (∀ h, 1 ≤ h → h ≤ 4 → s.title? h = none → (∀ h', 1 ≤ h' → h' < h → s.title? h' ≠ none) →
        exec (.registerTitle p tag n) s = .next (({ s with
          titles := Tab.put s.titles h
            ⟨.opened, n, ⟨-190, 20, -30, -600, -550⟩, none, [⟨12, 170, 340, 680, 170, 170⟩]⟩ } : State).answered
          p tag 8 (s.marked p) { status := .ok, results := [BitVec.ofNat 8 h, 1#8] })))

/-- SET-TITLE-PARAMS: each named field takes its value clamped into its range, and the others keep theirs. SET-PROFILE and
SET-PROFILE-COUNT: the profile at the index, or the length of the list with default profiles added; RANGE for an index, a field or a
count outside its range. Every taken one marks every published chapter of the title stale. -/
def Obligations.TitleParameters : Prop :=
  (∀ (p : Port) (tag : Byte) (th : Nat) (mask : Byte) (v : Loudness) (s : State) (t : Title), s.listens p → s.allows p .plan →
     s.title? th = some t → t.state = .opened → s.titleInLane th = false →
     ∃ l : Loudness,
       l.target = (if mask.getLsbD 0 then max (-300) (min (-120) v.target) else t.loudness.target) ∧
       l.tolerance = (if mask.getLsbD 1 then max 0 (min 100 v.tolerance) else t.loudness.tolerance) ∧
       l.ceiling = (if mask.getLsbD 2 then max (-100) (min 0 v.ceiling) else t.loudness.ceiling) ∧
       l.absGate = (if mask.getLsbD 3 then max (-900) (min (-300) v.absGate) else t.loudness.absGate) ∧
       l.silence = (if mask.getLsbD 4 then max (-900) (min (-200) v.silence) else t.loudness.silence) ∧
       exec (.setTitleParams p tag th mask v) s = .next (({ s with
         titles := Tab.put s.titles th { t with loudness := l },
         chapters := s.chapters.map (fun e =>
           if e.1 / 128 = th ∧ e.2.published = true then (e.1, { e.2 with stale := true }) else e) } : State).answered
         p tag 11 (s.marked p)
         { status := .ok,
           flags := { clamped := decide (
             (mask.getLsbD 0 = true ∧ (v.target < -300 ∨ -120 < v.target)) ∨
             (mask.getLsbD 1 = true ∧ (v.tolerance < 0 ∨ 100 < v.tolerance)) ∨
             (mask.getLsbD 2 = true ∧ (v.ceiling < -100 ∨ 0 < v.ceiling)) ∨
             (mask.getLsbD 3 = true ∧ (v.absGate < -900 ∨ -300 < v.absGate)) ∨
             (mask.getLsbD 4 = true ∧ (v.silence < -900 ∨ -200 < v.silence))) },
           results := loudnessBytes l })) ∧
  (∀ (p : Port) (tag : Byte) (th n : Nat) (f : Profile) (s : State) (t : Title), s.listens p → s.allows p .plan →
     s.title? th = some t → t.state = .opened → s.titleInLane th = false →
     (if n < t.profiles.length ∧ (8 ≤ f.bmin ∧ f.bmin ≤ 64) ∧ (f.bmin ≤ f.bsus ∧ 16 ≤ f.bsus ∧ f.bsus ≤ 1024) ∧
         (f.bsus ≤ f.bpeak ∧ f.bpeak ≤ 2048) ∧ f.cmax ≤ 65535 ∧ f.ts ≤ f.cmax ∧ (1 ≤ f.d ∧ f.d ≤ 65535) then
       exec (.setProfile p tag th n f) s = .next ((({ s with
         titles := Tab.put s.titles th { t with profiles := t.profiles.set n f } } : State).markStale th).answered
         p tag 12 (s.marked p) { status := .ok, results := profileBytes f })
     else
       exec (.setProfile p tag th n f) s = .next (s.answered p tag 12 (s.marked p) { status := .range })) ∧
     (if 1 ≤ n ∧ n ≤ 4 then
       exec (.setProfileCount p tag th n) s = .next ((({ s with
         titles := Tab.put s.titles th ⟨t.state, t.catalogue, t.loudness, t.roomTone,
           t.profiles.take n ++ List.replicate (n - t.profiles.length) ⟨12, 170, 340, 680, 170, 170⟩⟩ } : State).markStale
         th).answered p tag 1 (s.marked p) { status := .ok, results := [BitVec.ofNat 8 n] })
     else
       exec (.setProfileCount p tag th n) s = .next (s.answered p tag 1 (s.marked p) { status := .range })))

/-- SET-ROOM-TONE and CLEAR-ROOM-TONE: the span replaced or removed, the counts of the groups of the new span raised and those
of the old span lowered, and every published chapter of the title marked stale; BAD_HANDLE, BAD_STATE or RANGE for a take or a
span that does not serve. -/
def Obligations.RoomTone : Prop :=
  ∀ (p : Port) (tag : Byte) (th take start length : Nat) (s : State) (t : Title), s.listens p → s.allows p .plan →
    s.title? th = some t → t.state = .opened → s.titleInLane th = false →
    (s.take? th take = none →
      exec (.setRoomTone p tag th take start length) s =
        .next (s.answered p tag 10 (s.marked p) { status := .badHandle })) ∧
    (∀ k, s.take? th take = some k → k.state = .recording →
      exec (.setRoomTone p tag th take start length) s =
        .next (s.answered p tag 10 (s.marked p) { status := .badState })) ∧
    (∀ k, s.take? th take = some k → k.state ≠ .recording → ¬ (4800 ≤ length ∧ length ≤ 96000 ∧ spanFits k start length) →
      exec (.setRoomTone p tag th take start length) s =
        .next (s.answered p tag 10 (s.marked p) { status := .range })) ∧
    (∀ k, s.take? th take = some k → k.state ≠ .recording → 4800 ≤ length → length ≤ 96000 → spanFits k start length →
      exec (.setRoomTone p tag th take start length) s = .next ((({ s with
        titles := Tab.put s.titles th { t with roomTone := some ⟨take, start, length⟩ },
        takeMem := (s.takeMem.raise (s.takeMem.touched take start length)).lower (s.takeMem.toneGroups t.roomTone) }
          : State).markStale th).answered p tag 10 (s.marked p)
        { status := .ok, results := le 2 take ++ (le 4 start ++ le 4 length) })) ∧
    exec (.clearRoomTone p tag th) s = .next ((({ s with
      titles := Tab.put s.titles th { t with roomTone := none },
      takeMem := s.takeMem.lower (s.takeMem.toneGroups t.roomTone) } : State).markStale th).answered p tag 0 (s.marked p)
      { status := .ok })

/-- HOLD-TITLE, RELEASE-TITLE and FINALIZE-TITLE: the new state, no change where the state is reached already, and the offending
index of a FINALIZE-TITLE that is refused. That a reply gives the state where nothing changes too is the model's choice (log
entry 16). -/
def Obligations.TitleStates : Prop :=
  ∀ (p : Port) (tag : Byte) (th : Nat) (s : State) (t : Title), s.listens p → s.allows p .plan → s.title? th = some t →
    (t.state = .opened → exec (.holdTitle p tag th) s = .next (({ s with
      titles := Tab.put s.titles th { t with state := .held } } : State).answered p tag 0 (s.marked p)
      { status := .ok, results := [2#8] })) ∧
    (t.state = .held →
      exec (.holdTitle p tag th) s = .next (s.answered p tag 0 (s.marked p) { status := .ok, results := [2#8] })) ∧
    (t.state = .held → exec (.releaseTitle p tag th) s = .next (({ s with
      titles := Tab.put s.titles th { t with state := .opened } } : State).answered p tag 0 (s.marked p)
      { status := .ok, results := [1#8] })) ∧
    (t.state = .opened →
      exec (.releaseTitle p tag th) s = .next (s.answered p tag 0 (s.marked p) { status := .ok, results := [1#8] })) ∧
    (t.state = .final →
      exec (.finalizeTitle p tag th) s = .next (s.answered p tag 0 (s.marked p) { status := .ok, results := [3#8] })) ∧
    (t.state ≠ .final → (∀ e ∈ s.chapters, e.1 / 128 ≠ th) →
      exec (.finalizeTitle p tag th) s =
        .next (s.answered p tag 0 (s.marked p) { status := .badState, results := [255#8] })) ∧
    (∀ c k, t.state ≠ .final → Tab.wf s.chapters = true → c ≤ 127 → s.chapter? ⟨th, c⟩ = some k →
      k.state ≠ .done ∨ k.stale = true →
      (∀ c' k', c' < c → s.chapter? ⟨th, c'⟩ = some k' → k'.state = .done ∧ k'.stale = false) →
      exec (.finalizeTitle p tag th) s =
        .next (s.answered p tag 0 (s.marked p) { status := .badState, results := [BitVec.ofNat 8 c] })) ∧
    (t.state ≠ .final → (∃ e ∈ s.chapters, e.1 / 128 = th) →
      (∀ e ∈ s.chapters, e.1 / 128 = th → e.2.state = .done ∧ e.2.stale = false) →
      ((∃ e ∈ s.takeMem.takes, e.2.title = th ∧ e.2.state = .recording) →
        exec (.finalizeTitle p tag th) s =
          .next (s.answered p tag 0 (s.marked p) { status := .badState, results := [255#8] })) ∧
      ((∀ e ∈ s.takeMem.takes, e.2.title = th → e.2.state ≠ .recording) →
        exec (.finalizeTitle p tag th) s = .next (({ s with
          titles := Tab.put s.titles th { t with state := .final } } : State).answered p tag 0 (s.marked p)
          { status := .ok, results := [3#8] })))

/-- RETIRE-TITLE: BUSY, LOCKED, or taken. What a taken one leaves of each block: the queue without the title's entries, its
counts lowered, its pages at the tail of the pool in order, its chapters, sets and takes gone, its groups at the tail of the dirty
list or in the bad set, the notices and the marks that name it gone, and the record FREE. The port has the reply, its transaction has
ended, and every ATTN is as the lists and masks give it; nothing else changes. The sizes of the five counts of the reply, 1, 2, 4, 2
and 2 bytes, are the model's inference (log entry 6). -/
def Obligations.RetireTitle : Prop :=
  ∀ (p : Port) (tag : Byte) (th : Nat) (s : State) (ti : Title), s.listens p → s.allows p .plan → s.title? th = some ti →
    (s.titleInLane th = true ∨ s.titleRecording th = true →
      exec (.retireTitle p tag th) s = .next (s.answered p tag 0 (s.marked p) { status := .busy })) ∧
    (s.titleInLane th = false → s.titleRecording th = false → (∃ e ∈ s.holdTable.holds, e.2.chapter.title = th) →
      exec (.retireTitle p tag th) s = .next (s.answered p tag 0 (s.marked p) { status := .locked })) ∧
    (s.titleInLane th = false → s.titleRecording th = false → (∀ e ∈ s.holdTable.holds, e.2.chapter.title ≠ th) →
      s.GroupLaw → ∃ t, exec (.retireTitle p tag th) s = .next t ∧
      let gone := (s.titleTakes th).flatMap (fun e => e.2.owned)
      let toDirty := gone.filter (fun g => !(s.takeMem.group g).faulted)
      let toBad := gone.filter (fun g => (s.takeMem.group g).faulted)
      t.titles = Tab.drop s.titles th ∧ t.chapters = s.chapters.filter (fun e => decide (e.1 / 128 ≠ th)) ∧
      t.queue.rush = s.queue.rush.filter (fun c => decide (c.title ≠ th)) ∧
      t.queue.normal = s.queue.normal.filter (fun c => decide (c.title ≠ th)) ∧
      t.queue.count = s.queue.count - (s.queue.rush ++ s.queue.normal).countP (fun c => decide (c.title = th)) ∧
      t.rendMem.pool = s.rendMem.pool ++
        (s.rendMem.sets.filter (fun e => decide (e.1 / 128 = th))).flatMap (fun e => e.2.pages) ∧
      t.rendMem.sets = s.rendMem.sets.filter (fun e => decide (e.1 / 128 ≠ th)) ∧ t.rendMem.mem = s.rendMem.mem ∧
      t.takeMem.takes = s.takeMem.takes.filter (fun e => decide (e.2.title ≠ th)) ∧
      t.takeMem.clean = s.takeMem.clean ∧ t.takeMem.engine = s.takeMem.engine ∧ t.takeMem.scrub = s.takeMem.scrub ∧
      t.takeMem.mem = s.takeMem.mem ∧ t.takeMem.dirty = s.takeMem.dirty ++ toDirty ∧
      t.takeMem.bad.Perm (s.takeMem.bad ++ toBad) ∧ t.takeMem.groups.length = s.takeMem.groups.length ∧
      (∀ g, g < s.takeMem.groups.length → t.takeMem.group g =
        { (if g ∈ toBad then ⟨.bad, none, none, 0, false⟩
           else if g ∈ toDirty then ⟨.dirty, none, none, 0, false⟩ else s.takeMem.group g : Group) with
          refs := (s.takeMem.group g).refs - (s.titleGroups th ti).count g }) ∧
      t.lanes = s.lanes ∧ t.wheel = s.wheel ∧ t.holdTable = s.holdTable ∧ t.cause = s.cause ∧ t.resetHeld = s.resetHeld ∧
      t.pending = s.pending ∧
      (∀ q : Port,
        (t.port q).lists = (s.port q).lists.removeNaming (fun c => decide (c.title = th)) ∧
        (t.port q).mask = (s.port q).mask ∧ (t.port q).role = (s.port q).role ∧
        (t.port q).operation = (s.port q).operation ∧ (t.port q).discardMark = (s.port q).discardMark ∧
        (t.port q).resetLine = (s.port q).resetLine ∧ (t.port q).cuts = (s.port q).cuts ∧
        (t.port q).attn = (t.driveAttn.port q).attn ∧
        (q ≠ p → (t.port q).state = (s.port q).state ∧ (t.port q).reply = (s.port q).reply ∧
          (t.port q).span = (s.port q).span ∧ (t.port q).sent = (s.port q).sent ∧ (t.port q).sequence =
            if (s.titleTakes th).any (fun e => decide ((s.port q).sequence.take? = some e.1)) then .none
            else (s.port q).sequence)) ∧
      (t.port p).sequence = .none ∧ (t.port p).state = .replyReady ∧ (t.port p).span = none ∧
      (t.port p).sent = 0x10#8 :: List.replicate 6 0#8 ∧
      (t.port p).reply = some ⟨.ok, tag, { discardReset := s.marked p },
        le 1 (s.titleChapters th).length ++ (le 2 (s.titleTakes th).length ++ (le 4 (s.titlePages th).length ++
          (le 2 toDirty.length ++ le 2 toBad.length)))⟩)

/-! ### Chapters -/

/-- DEFINE-CHAPTER: RANGE above 127, BAD_STATE for an index that has a record, and otherwise the record of R19. SET-CHAPTER-PADS: both
pads, or RANGE. -/
def Obligations.DefineChapterAndPads : Prop :=
  (∀ (p : Port) (tag : Byte) (th c : Nat) (s : State) (t : Title), s.listens p → s.allows p .plan →
      s.title? th = some t → t.state = .opened →
      (127 < c → exec (.defineChapter p tag th c) s = .next (s.answered p tag 1 (s.marked p) { status := .range })) ∧
      (∀ k, c ≤ 127 → s.chapter? ⟨th, c⟩ = some k →
        exec (.defineChapter p tag th c) s = .next (s.answered p tag 1 (s.marked p) { status := .badState })) ∧
      (c ≤ 127 → s.chapter? ⟨th, c⟩ = none →
        exec (.defineChapter p tag th c) s = .next (({ s with
          chapters := Tab.put s.chapters (th * 128 + c) ⟨.draft, [], 24000, 96000, .normal, false, 0, false⟩ } : State).answered
          p tag 1 (s.marked p)
          { status := .ok, results := [BitVec.ofNat 8 c, 0#8, 0xC0#8, 0x5D#8, 0#8, 0#8, 0x00#8, 0x77#8, 0x01#8, 0#8,
            0xC0#8, 0xD4#8, 0x01#8, 0#8] }))) ∧
  (∀ (p : Port) (tag : Byte) (th c head tail : Nat) (s : State) (t : Title) (k : Chapter), s.listens p → s.allows p .plan →
      s.title? th = some t → t.state = .opened → c ≤ 127 → s.chapter? ⟨th, c⟩ = some k →
      (240000 < head ∨ 240000 < tail ∨ 268435456 < timelineLength head k.segments tail →
        exec (.setChapterPads p tag th c head tail) s = .next (s.answered p tag 9 (s.marked p) { status := .range })) ∧
      (head ≤ 240000 → tail ≤ 240000 → timelineLength head k.segments tail ≤ 268435456 →
        editTaken s p tag 9 ⟨th, c⟩ { k with headPad := head, tailPad := tail } s.takeMem
          (exec (.setChapterPads p tag th c head tail) s)))

/-- What names a chapter, a take or a hold, after the checks of its title. A chapter index above 127 is RANGE, and one without a record
BAD_STATE; a take that is no record of the title is BAD_HANDLE; of a hold's handle, a slot that does not exist is BAD_HANDLE, a free
slot or another generation TOO_LATE, and a hold of another port or title BAD_HANDLE. -/
def Obligations.NamesResolved : Prop :=
  (∀ (i : Instr) (p : Port) (tag : Byte) (r : Request) (s : State) (t : Title) (c : Nat), i.request? = some (p, tag, r) →
     s.listens p → s.allows p (requestClass r) → chapterNamed r = some c → s.title? (titleByte r) = some t →
     lockedIn t.state r = false →
     (127 < c → exec i s = .next (s.answered p tag (operandLength r) (s.marked p) { status := .range })) ∧
     (c ≤ 127 → s.chapter? ⟨titleByte r, c⟩ = none →
       exec i s = .next (s.answered p tag (operandLength r) (s.marked p) { status := .badState }))) ∧
  (∀ (i : Instr) (p : Port) (tag : Byte) (r : Request) (s : State) (t : Title) (take : Nat), i.request? = some (p, tag, r) →
     s.listens p → s.allows p (requestClass r) →
     formatOk r = true → takeNamed r = some take → s.title? (titleByte r) = some t → s.take? (titleByte r) take = none →
     exec i s = .next (s.answered p tag (operandLength r) (s.marked p) { status := .badHandle })) ∧
  (∀ (i : Instr) (p : Port) (tag : Byte) (r : Request) (s : State) (t : Title) (slot gen : Nat),
     i.request? = some (p, tag, r) → s.listens p → s.allows p .read → handleNamed r = some (slot, gen) →
     s.title? (titleByte r) = some t →
     let no := fun st => exec i s = .next (s.answered p tag (operandLength r) (s.marked p) { status := st })
     (slot = 0 ∨ 16 < slot → no .badHandle) ∧
     (1 ≤ slot → slot ≤ 16 → Tab.look s.holdTable.holds slot = none → no .tooLate) ∧
     (∀ h, 1 ≤ slot → slot ≤ 16 → Tab.look s.holdTable.holds slot = some h →
       (s.holdTable.gens.getD (slot - 1) 0 ≠ gen → no .tooLate) ∧
       (s.holdTable.gens.getD (slot - 1) 0 = gen → h.owner ≠ p ∨ h.chapter.title ≠ titleByte r → no .badHandle)))

/-- INSERT-SEGMENT: the segment at its position, the later ones moved up, and the count of each group it touches raised; RANGE, FULL,
BAD_HANDLE, BAD_STATE or RANGE in the order of the checks. REPLACE-SEGMENT: the new segment in the place of the old one, the counts
of the new one's groups raised and of the old one's lowered; RANGE, BAD_HANDLE, BAD_STATE or RANGE. -/
def Obligations.SegmentsPlaced : Prop :=
  (∀ (p : Port) (tag : Byte) (th c pos : Nat) (g : Segment) (s : State) (t : Title) (k : Chapter),
     s.listens p → s.allows p .plan → s.title? th = some t → t.state = .opened → c ≤ 127 → s.chapter? ⟨th, c⟩ = some k →
     let no := fun st => exec (.insertSegment p tag th c pos g) s =
       .next (s.answered p tag 20 (s.marked p) { status := st })
     let list := k.segments.take pos ++ g :: k.segments.drop pos
     (k.segments.length < pos → no .range) ∧
     (pos ≤ k.segments.length → 32 ≤ k.segments.length → no .full) ∧
     (pos ≤ k.segments.length → k.segments.length < 32 →
       (s.take? th g.take = none → no .badHandle) ∧
       (∀ x, s.take? th g.take = some x →
         (x.state = .recording → no .badState) ∧
         (x.state ≠ .recording → ¬ (segmentFits x g ∧ timelineLength k.headPad list k.tailPad ≤ 268435456) → no .range) ∧
         (x.state ≠ .recording → segmentFits x g → timelineLength k.headPad list k.tailPad ≤ 268435456 →
           editTaken s p tag 20 ⟨th, c⟩ { k with segments := list } (s.takeMem.raise (s.takeMem.segmentGroups g))
             (exec (.insertSegment p tag th c pos g) s))))) ∧
  (∀ (p : Port) (tag : Byte) (th c pos : Nat) (g : Segment) (s : State) (t : Title) (k : Chapter),
     s.listens p → s.allows p .plan → s.title? th = some t → t.state = .opened → c ≤ 127 → s.chapter? ⟨th, c⟩ = some k →
     let no := fun st => exec (.replaceSegment p tag th c pos g) s =
       .next (s.answered p tag 20 (s.marked p) { status := st })
     let list := k.segments.set pos g
     (k.segments.length ≤ pos → no .range) ∧
     (∀ old, k.segments[pos]? = some old →
       (s.take? th g.take = none → no .badHandle) ∧
       (∀ x, s.take? th g.take = some x →
         (x.state = .recording → no .badState) ∧
         (x.state ≠ .recording → ¬ (segmentFits x g ∧ timelineLength k.headPad list k.tailPad ≤ 268435456) → no .range) ∧
         (x.state ≠ .recording → segmentFits x g → timelineLength k.headPad list k.tailPad ≤ 268435456 →
           editTaken s p tag 20 ⟨th, c⟩ { k with segments := list }
             ((s.takeMem.raise (s.takeMem.segmentGroups g)).lower (s.takeMem.segmentGroups old))
             (exec (.replaceSegment p tag th c pos g) s)))))

/-- REMOVE-SEGMENT: the segment gone, the later ones moved down, and the count of each group it touched lowered; RANGE for a
position outside the list, BAD_STATE for the last segment of a chapter that waits for a lane or is in one. -/
def Obligations.RemoveSegment : Prop :=
  ∀ (p : Port) (tag : Byte) (th c pos : Nat) (s : State) (t : Title) (k : Chapter), s.listens p → s.allows p .plan →
    s.title? th = some t → t.state = .opened → c ≤ 127 → s.chapter? ⟨th, c⟩ = some k →
    let no := fun st => exec (.removeSegment p tag th c pos) s =
      .next (s.answered p tag 2 (s.marked p) { status := st })
    (k.segments.length ≤ pos → no .range) ∧
    (pos < k.segments.length → k.segments.length = 1 →
      k.state = .queued ∨ k.state = .measuring ∨ k.state = .encoding ∨ k.state = .commitWait → no .badState) ∧
    (∀ old, k.segments[pos]? = some old →
      k.segments.length ≠ 1 ∨ k.state = .draft ∨ k.state = .done ∨ k.state = .failed →
      editTaken s p tag 2 ⟨th, c⟩ { k with segments := k.segments.take pos ++ k.segments.drop (pos + 1) }
        (s.takeMem.lower (s.takeMem.segmentGroups old)) (exec (.removeSegment p tag th c pos) s))

/-- Groups and counts: a span counts once in each group it touches; raising and lowering change the counts by the numbers of times
a group is named, and change nothing else of take memory. -/
def Obligations.CountsMove : Prop :=
  (∀ (m : TakeMemory) (take start length g : Nat), 1 ≤ length →
    (m.touched take start length).count g =
      ((Finset.Icc (start / 262144) ((start + length - 1) / 262144)).filter
        (fun i => m.entry take i = some (some g))).card) ∧
  (∀ (m : TakeMemory) (up dn : List Nat),
    (∀ g, g < m.groups.length → ((m.raise up).lower dn).group g =
      { m.group g with refs := (m.group g).refs + up.count g - dn.count g }) ∧
    { (m.raise up).lower dn with groups := m.groups } = m)

/-- DELETE-CHAPTER: LOCKED while a hold names the chapter. Otherwise the chapter leaves its FIFO or its lane, its references are
lowered, the pages of its render and then of its set join the pool, the notices that name it go, and its record goes. That the page
count of the reply is that of the render and of the set together, in 4 bytes, is the model's inference (log entry 6). -/
def Obligations.DeleteChapter : Prop :=
  ∀ (p : Port) (tag : Byte) (th c : Nat) (s : State) (t : Title) (k : Chapter), s.listens p → s.allows p .plan →
    s.title? th = some t → t.state = .opened → c ≤ 127 → s.chapter? ⟨th, c⟩ = some k →
    let ch : ChapterId := ⟨th, c⟩
    let no := exec (.deleteChapter p tag th c) s = .next (s.answered p tag 1 (s.marked p) { status := .locked })
    let erased := fun (u : State) => { u with
      takeMem := s.takeMem.lower (k.segments.flatMap s.takeMem.segmentGroups),
      rendMem := { u.rendMem with
        pool := u.rendMem.pool ++ s.rendMem.setPages ch, sets := Tab.drop s.rendMem.sets (th * 128 + c) },
      ports := s.ports.notify (fun l => l.removeNaming (fun x => decide (x = ch))),
      chapters := Tab.drop s.chapters (th * 128 + c) }
    let reply := fun (pages : Nat) =>
      (⟨.ok, {}, [BitVec.ofNat 8 k.state.code, BitVec.ofNat 8 k.segments.length] ++ le 4 pages⟩ : Result)
    ((∃ e ∈ s.holdTable.holds, e.2.chapter = ch) → no) ∧
    ((∀ e ∈ s.holdTable.holds, e.2.chapter ≠ ch) →
      (k.state = .draft ∨ k.state = .done ∨ k.state = .failed →
        exec (.deleteChapter p tag th c) s = .next ((erased s).answered p tag 1 (s.marked p)
          (reply (s.rendMem.setPages ch).length))) ∧
      (k.state = .queued →
        exec (.deleteChapter p tag th c) s = .next ((erased { s with
          queue := ⟨s.queue.rush.filter (fun x => decide (x ≠ ch)),
            s.queue.normal.filter (fun x => decide (x ≠ ch)), s.queue.count - 1⟩ }).answered p tag 1 (s.marked p)
          (reply (s.rendMem.setPages ch).length))) ∧
      (∀ i r, k.state.inLane = true → s.laneOf ch = some i → (s.lanes.get i).render = some r →
        exec (.deleteChapter p tag th c) s = .next ((erased { s.dropRender i r
            ⟨ch, .deleted, r.stage.laneState, none, none, none, none⟩ with
          queue := { s.queue with count := s.queue.count - 1 } }).answered p tag 1 (s.marked p)
          (reply (r.pages.length + (s.rendMem.setPages ch).length)))))

/-! ### The queue, the lanes and the wheel -/

/-- QUEUE-RENDER: the chapter QUEUED at the tail of the FIFO of its priority and counted; RANGE, BAD_STATE, FULL. CANCEL-RENDER: the
chapter out of its FIFO or its lane, DONE if it is published and not stale and otherwise DRAFT; BAD_STATE for a chapter that is in
neither. That the lane number and the page count of the CANCEL-RENDER reply each have a presence byte, with zeros for a QUEUED
chapter, and the sizes of the position, the count and the page count, are the model's inferences (log entry 6). -/
def Obligations.QueueAndCancel : Prop :=
  (∀ (p : Port) (tag : Byte) (th c pr : Nat) (s : State) (t : Title) (k : Chapter), s.listens p → s.allows p .render →
     s.title? th = some t → t.state ≠ .final → c ≤ 127 → s.chapter? ⟨th, c⟩ = some k →
     let no := fun st => exec (.queueRender p tag th c pr) s = .next (s.answered p tag 2 (s.marked p) { status := st })
     (1 < pr → no .range) ∧
     (pr ≤ 1 → k.state = .queued ∨ k.state = .measuring ∨ k.state = .encoding ∨ k.state = .commitWait → no .badState) ∧
     (pr ≤ 1 → k.state = .draft ∨ k.state = .done ∨ k.state = .failed →
       (k.segments = [] → no .badState) ∧
       (k.segments ≠ [] → 64 ≤ s.queue.count → no .full) ∧
       (k.segments ≠ [] → s.queue.count < 64 → pr = 0 →
         exec (.queueRender p tag th c pr) s = .next (({ s with
           chapters := Tab.put s.chapters (th * 128 + c) { k with priority := .normal, state := .queued },
           queue := ⟨s.queue.rush, s.queue.normal ++ [⟨th, c⟩], s.queue.count + 1⟩ } : State).answered p tag 2 (s.marked p)
           { status := .ok,
             results := [0#8, BitVec.ofNat 8 s.queue.normal.length, BitVec.ofNat 8 (s.queue.count + 1)] })) ∧
       (k.segments ≠ [] → s.queue.count < 64 → pr = 1 →
         exec (.queueRender p tag th c pr) s = .next (({ s with
           chapters := Tab.put s.chapters (th * 128 + c) { k with priority := .rush, state := .queued },
           queue := ⟨s.queue.rush ++ [⟨th, c⟩], s.queue.normal, s.queue.count + 1⟩ } : State).answered p tag 2 (s.marked p)
           { status := .ok,
             results := [1#8, BitVec.ofNat 8 s.queue.rush.length, BitVec.ofNat 8 (s.queue.count + 1)] })))) ∧
  (∀ (p : Port) (tag : Byte) (th c : Nat) (s : State) (t : Title) (k : Chapter), s.listens p → s.allows p .render →
     s.title? th = some t → c ≤ 127 → s.chapter? ⟨th, c⟩ = some k →
     let ch : ChapterId := ⟨th, c⟩
     let after : ChapterState := if k.published = true ∧ k.stale = false then .done else .draft
     let code : Byte := if k.published = true ∧ k.stale = false then 5#8 else 0#8
     (k.state = .draft ∨ k.state = .done ∨ k.state = .failed →
       exec (.cancelRender p tag th c) s = .next (s.answered p tag 1 (s.marked p) { status := .badState })) ∧
     (k.state = .queued →
       exec (.cancelRender p tag th c) s = .next (({ s with
         chapters := Tab.put s.chapters (th * 128 + c) { k with state := after },
         queue := ⟨s.queue.rush.filter (fun x => decide (x ≠ ch)),
           s.queue.normal.filter (fun x => decide (x ≠ ch)), s.queue.count - 1⟩ } : State).answered p tag 1 (s.marked p)
         { status := .ok, results := [1#8, code, 0#8, 0#8, 0#8, 0#8, 0#8, 0#8, 0#8] })) ∧
     (∀ i r, k.state.inLane = true → s.laneOf ch = some i → (s.lanes.get i).render = some r →
       exec (.cancelRender p tag th c) s = .next (({ s.dropRender i r
           ⟨ch, .cancelled, r.stage.laneState, none, none, none, none⟩ with
         chapters := Tab.put s.chapters (th * 128 + c) { k with state := after },
         queue := { s.queue with count := s.queue.count - 1 } } : State).answered p tag 1 (s.marked p)
         { status := .ok, results := [BitVec.ofNat 8 k.state.code, code, 1#8, BitVec.ofNat 8 i.val, 1#8] ++
           le 4 r.pages.length })))

/-- SET-WHEEL: the four entries become the pending pattern, the pattern in force stays; RANGE for an entry that is neither a lane nor
NONE. SET-LANES: the enabled flags; RANGE for a set that names a lane above 3. SET-HOLD-LIMIT: the value clamped into 1 to 60, with
CLAMPED if it was changed. That the SET-WHEEL reply gives the pending pattern without a presence byte, and that the applied value of
SET-HOLD-LIMIT has 1 byte, are the model's inferences (log entry 6). -/
def Obligations.RenderSettings : Prop :=
  (∀ (p : Port) (tag : Byte) (s : State), s.listens p → s.allows p .render →
     (∀ e0 e1 e2 e3 : Nat,
       let ok := fun e => e ≤ 3 ∨ e = 255
       let entry := fun (e : Nat) => (if h : e < 4 then some ⟨e, h⟩ else none : Option (Fin 4))
       if ok e0 ∧ ok e1 ∧ ok e2 ∧ ok e3 then
         exec (.setWheel p tag e0 e1 e2 e3) s = .next (({ s with
           wheel := { s.wheel with pending := some ⟨entry e0, entry e1, entry e2, entry e3⟩ } } : State).answered
           p tag 4 (s.marked p)
           { status := .ok, results := patternBytes s.wheel.pattern ++
             [BitVec.ofNat 8 e0, BitVec.ofNat 8 e1, BitVec.ofNat 8 e2, BitVec.ofNat 8 e3] })
       else exec (.setWheel p tag e0 e1 e2 e3) s = .next (s.answered p tag 4 (s.marked p) { status := .range })) ∧
     (∀ m : Byte,
       if m.toNat < 16 then
         exec (.setLanes p tag m) s = .next (({ s with
           lanes := ⟨{ s.lanes.e0 with enabled := m.getLsbD 0 }, { s.lanes.e1 with enabled := m.getLsbD 1 },
             { s.lanes.e2 with enabled := m.getLsbD 2 }, { s.lanes.e3 with enabled := m.getLsbD 3 }⟩ } : State).answered
           p tag 1 (s.marked p)
           { status := .ok, results := m :: s.lanes.toList.map (fun l => BitVec.ofNat 8 l.state.code) })
       else exec (.setLanes p tag m) s = .next (s.answered p tag 1 (s.marked p) { status := .range }))) ∧
  (∀ (p : Port) (tag : Byte) (n : Int) (s : State), s.listens p → s.allows p .render →
     exec (.setHoldLimit p tag n) s = .next (({ s with
       holdTable := { s.holdTable with limit := (max 1 (min 60 n)).toNat } } : State).answered p tag 2 (s.marked p)
       { status := .ok, flags := { clamped := decide (n < 1 ∨ 60 < n) },
         results := [BitVec.ofNat 8 (max 1 (min 60 n)).toNat] }))

/-! ### Reads and holds -/

/-- OPEN-READ: the checks in their order, and a hold in the lowest-numbered free slot with the next generation. READ-RANGE: RANGE for a
length of 0 or above 4,096 or an offset at or past the end; otherwise the hold's timer starts again, its read is the range shortened
to the end of the image, and the port is EXECUTING. -/
def Obligations.OpenReadAndReadRange : Prop :=
  (∀ (p : Port) (tag : Byte) (th c ri : Nat) (s : State) (t : Title) (k : Chapter), s.listens p → s.allows p .read →
      s.title? th = some t → c ≤ 127 → s.chapter? ⟨th, c⟩ = some k →
      let no := fun st => exec (.openRead p tag th c ri) s = .next (s.answered p tag 2 (s.marked p) { status := st })
      (3 < ri → no .range) ∧
      (ri ≤ 3 → k.published = false → no .badState) ∧
      (∀ set, ri ≤ 3 → k.published = true → Tab.look s.rendMem.sets (th * 128 + c) = some set →
        ((t.profiles.length ≤ ri ∨ ∀ im ∈ set.images, im.rendition ≠ ri) → no .range) ∧
        (∀ im, ri < t.profiles.length → set.image? ri = some im →
          (k.state = .commitWait → no .busy) ∧
          (k.state ≠ .commitWait →
            (16 ≤ s.holdTable.holds.length ∨ 8 ≤ (s.holdTable.holds.filter (fun e => decide (e.2.owner = p))).length →
              no .full) ∧
            (∀ slot, s.holdTable.holds.length < 16 →
              (s.holdTable.holds.filter (fun e => decide (e.2.owner = p))).length < 8 →
              1 ≤ slot → slot ≤ 16 → Tab.look s.holdTable.holds slot = none →
              (∀ j, 1 ≤ j → j < slot → Tab.look s.holdTable.holds j ≠ none) →
              let gen := (s.holdTable.gens.getD (slot - 1) 0 + 1) % 256
              exec (.openRead p tag th c ri) s = .next (({ s with
                holdTable := { s.holdTable with
                  gens := s.holdTable.gens.set (slot - 1) gen,
                  holds := Tab.put s.holdTable.holds slot
                    ⟨p, ⟨th, c⟩, ri, k.serial, s.holdTable.limit * 100, none⟩ } } : State).answered p tag 2 (s.marked p)
                { status := .ok, flags := { stale := k.stale },
                  results := [BitVec.ofNat 8 slot, BitVec.ofNat 8 gen] ++ (le 4 im.byteCount ++ (le 2 k.serial ++
                    [BitVec.ofNat 8 set.images.length])) })))))) ∧
  (∀ (p : Port) (tag : Byte) (th slot gen off len : Nat) (s : State) (t : Title) (h : Hold) (set : PublishedSet) (im : Image)
      (k : Chapter), s.listens p → s.allows p .read → s.title? th = some t → 1 ≤ slot → slot ≤ 16 →
      Tab.look s.holdTable.holds slot = some h → s.holdTable.gens.getD (slot - 1) 0 = gen → h.owner = p →
      h.chapter.title = th → Tab.look s.rendMem.sets h.chapter.key = some set → set.image? h.rendition = some im →
      s.chapter? h.chapter = some k →
      (len = 0 ∨ 4096 < len ∨ im.byteCount ≤ off →
        exec (.readRange p tag th slot gen off len) s = .next (s.answered p tag 8 (s.marked p) { status := .range })) ∧
      (1 ≤ len → len ≤ 4096 → off < im.byteCount →
        exec (.readRange p tag th slot gen off len) s = .next (({ s with
          holdTable := { s.holdTable with
            holds := Tab.put s.holdTable.holds slot
              { h with remaining := s.holdTable.limit * 100, read := some (off, min len (im.byteCount - off)) } } }
          : State).executes p tag 8 (s.marked p) (.fetch slot k.stale))))

/-- FETCH_COMPLETION: the read ends, the reply gives the length, the serial and the bytes of the image by its page list. Under the
discard mark the reply is dropped and the hold ends. That it changes nothing at a port without a fetch in flight, and while a
device reset is held, is the model's (log entries 9 and 5). -/
def Obligations.FetchCompletion : Prop :=
  (∀ (p : Port) (s : State), s.resetHeld ≠ none ∨ (s.port p).operation = none ∨
      (∃ tag dr take block data, (s.port p).operation = some ⟨tag, dr, .program take block data⟩) →
    exec (.fetchCompletion p) s = .next s.driveAttn) ∧
  ∀ (p : Port) (tag : Byte) (dr st : Bool) (slot off len : Nat) (s : State) (h : Hold) (set : PublishedSet) (im : Image),
    s.resetHeld = none → (s.port p).operation = some ⟨tag, dr, .fetch slot st⟩ →
    Tab.look s.holdTable.holds slot = some h → h.read = some (off, len) →
    Tab.look s.rendMem.sets h.chapter.key = some set → set.image? h.rendition = some im →
    ((s.port p).discardMark = false →
      exec (.fetchCompletion p) s = .next (({ s with
        holdTable := { s.holdTable with holds := Tab.put s.holdTable.holds slot { h with read := none } } }
          : State).changePort p (fun q => { q with
          state := .replyReady, operation := none,
          reply := some ⟨.ok, tag, { stale := st, discardReset := dr }, le 2 len ++ (le 2 h.serial ++
            (List.range len).map (fun j => match im.pages[(off + j) / 4096]? with
              | none => 0#8
              | some g => Memory.read s.rendMem.mem (g * 4096 + (off + j) % 4096)))⟩ })).driveAttn) ∧
    ((s.port p).discardMark = true → Memory.wf s.rendMem.mem = true →
      ∃ t, holdEnded s slot h t ∧ exec (.fetchCompletion p) s = .next (t.changePort p (fun q => { q with
        state := .idle, operation := none, discardMark := false })).driveAttn)

/-- CLOSE-READ: the hold ends, with the commit that it alone held back. HOLD_CLOCK_STEP: every hold with no read in flight counts down by
one, and no other. HOLD_EXPIRY: the hold in the lowest slot that stands at 0 with no read in flight ends, after its entry has joined
its owner's HOLD_EXPIRED list. That HOLD_EXPIRY with none such changes nothing, that each one ends one hold, and that the clock
leaves a hold at 0 at 0 is the model's choice (log entry 9). -/
def Obligations.HoldsEnd : Prop :=
  (∀ (p : Port) (tag : Byte) (th slot : Nat) (s : State) (t : Title) (h : Hold), s.listens p → s.allows p .read →
      s.title? th = some t → 1 ≤ slot → slot ≤ 16 → Tab.look s.holdTable.holds slot = some h → h.owner = p →
      h.chapter.title = th → Memory.wf s.rendMem.mem = true →
      ∃ u, holdEnded s slot h u ∧
        exec (.closeRead p tag th slot (s.holdTable.gens.getD (slot - 1) 0)) s =
          .next (u.answered p tag 2 (s.marked p) { status := .ok })) ∧
  (∀ (s : State), s.resetHeld = none →
      exec .holdClockStep s = .next ({ s with holdTable := { s.holdTable with
        holds := s.holdTable.holds.map (fun e =>
          if e.2.read = none then (e.1, { e.2 with remaining := e.2.remaining - 1 }) else e) } } : State).driveAttn ∧
      ((∀ e ∈ s.holdTable.holds, e.2.remaining ≠ 0 ∨ e.2.read ≠ none) → exec .holdExpiry s = .next s.driveAttn) ∧
      (∀ slot h, Tab.wf s.holdTable.holds = true → Memory.wf s.rendMem.mem = true →
        Tab.look s.holdTable.holds slot = some h → h.remaining = 0 → h.read = none →
        (∀ j x, j < slot → Tab.look s.holdTable.holds j = some x → x.remaining ≠ 0 ∨ x.read ≠ none) →
        ∃ u, holdEnded (s.changePort h.owner (fun q => { q with
            lists := q.lists.postExpired slot (s.holdTable.gens.getD (slot - 1) 0) h.chapter h.rendition })) slot h u ∧
          exec .holdExpiry s = .next u.driveAttn))

/-! ### Notices -/

/-- POP-NOTICE: the head of the list that the code names leaves it and is returned with the five numbers; EMPTY, or RANGE above 4.
SET-NOTICE-MASK: the set becomes the mask at once, and ATTN follows it; RANGE for a set that names a code above 4. That the EMPTY
reply is the five numbers with no list code is the model's inference (log entry 6). -/
def Obligations.NoticeRequests : Prop :=
  (∀ (p : Port) (tag : Byte) (s : State), s.listens p → s.allows p .query →
     let ls := (s.port p).lists
     let gives := fun (code : Nat) (entry : List Byte) (l : NoticeLists) => exec (.popNotice p tag code) s =
       .next ((s.changePort p (fun q => { q with lists := l })).answered p tag 1 (s.marked p)
         { status := .ok, results := BitVec.ofNat 8 code :: (entry ++ (le 2 l.done.length ++ (le 2 l.failed.length ++
           (le 2 l.starved.length ++ (le 2 l.restored.length ++ le 1 l.expired.length))))) })
     let empty := fun (code : Nat) => exec (.popNotice p tag code) s = .next (s.answered p tag 1 (s.marked p)
         { status := .ok, flags := { empty := true }, results := le 2 ls.done.length ++ (le 2 ls.failed.length ++
           (le 2 ls.starved.length ++ (le 2 ls.restored.length ++ le 1 ls.expired.length))) })
     (∀ code, 4 < code → exec (.popNotice p tag code) s = .next (s.answered p tag 1 (s.marked p) { status := .range })) ∧
     (match ls.done with
       | [] => empty 0
       | e :: rest => gives 0 ([BitVec.ofNat 8 e.chapter.title, BitVec.ofNat 8 e.chapter.index] ++ le 2 e.serial)
           { ls with done := rest }) ∧
     (match ls.failed with
       | [] => empty 1
       | e :: rest => gives 1 [BitVec.ofNat 8 e.chapter.title, BitVec.ofNat 8 e.chapter.index,
           match e.cause with | .takeFault => 0#8 | .noSpace => 1#8] { ls with failed := rest }) ∧
     (match ls.starved with
       | [] => empty 2
       | e :: rest => gives 2 ([BitVec.ofNat 8 e.chapter.title, BitVec.ofNat 8 e.chapter.index, BitVec.ofNat 8 e.rendition] ++
           le 4 e.frame) { ls with starved := rest }) ∧
     (match ls.restored with
       | [] => empty 3
       | e :: rest => gives 3 ([BitVec.ofNat 8 e.chapter.title, BitVec.ofNat 8 e.chapter.index, BitVec.ofNat 8 e.rendition] ++
           (le 4 e.frame ++ [if e.ended then 1#8 else 0#8])) { ls with restored := rest }) ∧
     (match ls.expired with
       | [] => empty 4
       | e :: rest => gives 4 [BitVec.ofNat 8 e.slot, BitVec.ofNat 8 e.generation, BitVec.ofNat 8 e.chapter.title,
           BitVec.ofNat 8 e.chapter.index, BitVec.ofNat 8 e.rendition] { ls with expired := rest })) ∧
  (∀ (p : Port) (tag m : Byte) (s : State), s.listens p → s.allows p .query →
     let ls := (s.port p).lists
     (32 ≤ m.toNat → exec (.setNoticeMask p tag m) s = .next (s.answered p tag 1 (s.marked p) { status := .range })) ∧
     (m.toNat < 32 → exec (.setNoticeMask p tag m) s = .next ((s.changePort p (fun q => { q with
         mask := ⟨m.getLsbD 0, m.getLsbD 1, m.getLsbD 2, m.getLsbD 3, m.getLsbD 4⟩ })).answered p tag 1 (s.marked p)
       { status := .ok, results := m :: (le 2 ls.done.length ++ (le 2 ls.failed.length ++ (le 2 ls.starved.length ++
         (le 2 ls.restored.length ++ le 1 ls.expired.length)))) })))

/-- How events move the entries: a key that is present is updated where it stands and a new one joins the tail; a starve takes its
key out of RESTORED and a restore takes its key out of STARVED; every other list stays. Several crossings join in the order given;
a removal takes out the entries that name a chapter and keeps the order of the others; and an event that every port hears changes
the lists of all three and nothing else of them. -/
def Obligations.NoticesMove : Prop :=
  ∀ (l : NoticeLists) (c : ChapterId) (n ri f slot gen : Nat) (cause : FailCause) (ended : Bool),
    ((∀ e ∈ l.done, e.chapter ≠ c) → l.postDone c n = { l with done := l.done ++ [⟨c, n⟩] }) ∧
    (∀ a b m, l.done = a ++ ⟨c, m⟩ :: b → (∀ e ∈ a, e.chapter ≠ c) → l.postDone c n = { l with done := a ++ ⟨c, n⟩ :: b }) ∧
    ((∀ e ∈ l.failed, e.chapter ≠ c) → l.postFailed c cause = { l with failed := l.failed ++ [⟨c, cause⟩] }) ∧
    (∀ a b x, l.failed = a ++ ⟨c, x⟩ :: b → (∀ e ∈ a, e.chapter ≠ c) →
      l.postFailed c cause = { l with failed := a ++ ⟨c, cause⟩ :: b }) ∧
    ((∀ e ∈ l.starved, ¬ (e.chapter = c ∧ e.rendition = ri)) → l.postStarve c ri f =
      { l with
        restored := l.restored.filter (fun e => decide (¬ (e.chapter = c ∧ e.rendition = ri))),
        starved := l.starved ++ [⟨c, ri, f⟩] }) ∧
    (∀ a b x, l.starved = a ++ ⟨c, ri, x⟩ :: b → (∀ e ∈ a, ¬ (e.chapter = c ∧ e.rendition = ri)) →
      l.postStarve c ri f =
      { l with
        restored := l.restored.filter (fun e => decide (¬ (e.chapter = c ∧ e.rendition = ri))),
        starved := a ++ ⟨c, ri, f⟩ :: b }) ∧
    ((∀ e ∈ l.restored, ¬ (e.chapter = c ∧ e.rendition = ri)) → l.postRestore c ri f ended =
      { l with
        restored := l.restored ++ [⟨c, ri, f, ended⟩],
        starved := l.starved.filter (fun e => decide (¬ (e.chapter = c ∧ e.rendition = ri))) }) ∧
    (∀ a b x y, l.restored = a ++ ⟨c, ri, x, y⟩ :: b → (∀ e ∈ a, ¬ (e.chapter = c ∧ e.rendition = ri)) →
      l.postRestore c ri f ended =
      { l with
        restored := a ++ ⟨c, ri, f, ended⟩ :: b,
        starved := l.starved.filter (fun e => decide (¬ (e.chapter = c ∧ e.rendition = ri))) }) ∧
    ((∀ e ∈ l.expired, e.slot ≠ slot) →
      l.postExpired slot gen c ri = { l with expired := l.expired ++ [⟨slot, gen, c, ri⟩] }) ∧
    (∀ a b x y z, l.expired = a ++ ⟨slot, x, y, z⟩ :: b → (∀ e ∈ a, e.slot ≠ slot) →
      l.postExpired slot gen c ri = { l with expired := a ++ ⟨slot, gen, c, ri⟩ :: b }) ∧
    (l.postCrossings c [] = l ∧
      ∀ xs, l.postCrossings c (.starve ri f :: xs) = (l.postStarve c ri f).postCrossings c xs ∧
        l.postCrossings c (.restore ri f ended :: xs) = (l.postRestore c ri f ended).postCrossings c xs) ∧
    (∀ gone : ChapterId → Bool, l.removeNaming gone =
      ⟨l.done.filter (fun e => !gone e.chapter), l.failed.filter (fun e => !gone e.chapter),
        l.starved.filter (fun e => !gone e.chapter), l.restored.filter (fun e => !gone e.chapter),
        l.expired.filter (fun e => !gone e.chapter)⟩) ∧
    (∀ (q : Ports) (event : NoticeLists → NoticeLists) (p : Port),
      (q.notify event).get p = { q.get p with lists := event (q.get p).lists })

/-! ### Requests that only read -/

/-- TITLE-INFO, CHAPTER-INFO, TAKE-INFO, LANE-INFO and DEVICE-STATUS are answered OK and change nothing but the port's reply, state
and discard sequence. An index without a record is answered UNDEFINED alone; a chapter index above 127 and a first group index past
the list are RANGE. What each reply gives, in its order. The presence bytes, the sizes of the counts and the order of LANE-INFO's two
FIFO counts are the model's inferences (log entry 6); LANE-INFO's encoder list and CHAPTER-INFO's image list without presence byte
are its choices (log entries 18 and 20). -/
def Obligations.InfoRequests : Prop :=
  let opt := fun (size : Nat) (o : Option (List Byte)) => match o with
    | none => List.replicate (size + 1) 0#8
    | some bs => 1#8 :: bs
  let mark := fun (b : Bool) => if b then 1#8 else 0#8
  let chapterState := fun (st : ChapterState) => match st with
    | .draft => 0#8 | .queued => 1#8 | .measuring => 2#8 | .encoding => 3#8 | .commitWait => 4#8 | .done => 5#8 | .failed => 6#8
  let priority := fun (q : Priority) => match q with | .normal => 0#8 | .rush => 1#8
  let laneState := fun (st : LaneState) => match st with | .idle => 0#8 | .measure => 1#8 | .encode => 2#8 | .commitWait => 3#8
  let segment := fun (g : Segment) =>
    le 2 g.take ++ le 4 g.start ++ le 4 g.length ++ le 2 g.fadeIn ++ le 2 g.fadeOut ++ le 4 g.gap
  let signed := fun (x : Int) => le 2 (x % 65536).toNat
  let pattern := fun (w : Pattern) => [w.e0, w.e1, w.e2, w.e3].map (fun e => match e with
    | none => 0xFF#8
    | some i => BitVec.ofNat 8 i.val)
  (∀ (p : Port) (tag : Byte) (s : State) (th : Nat) (t : Title), s.listens p → s.allows p .query → s.title? th = some t →
     let chapters := s.chapters.filter (fun e => decide (e.1 / 128 = th))
     let takes := s.takeMem.takes.filter (fun e => decide (e.2.title = th))
     exec (.titleInfo p tag th) s = .next (s.answered p tag 0 (s.marked p)
       { status := .ok,
         results := [match t.state with | .opened => 1#8 | .held => 2#8 | .final => 3#8] ++ le 8 t.catalogue ++
           signed t.loudness.target ++ signed t.loudness.tolerance ++ signed t.loudness.ceiling ++ signed t.loudness.absGate ++
           signed t.loudness.silence ++ le 1 t.profiles.length ++
           t.profiles.flatMap (fun f => le 1 f.bmin ++ le 2 f.bsus ++ le 2 f.bpeak ++ le 2 f.cmax ++ le 2 f.ts ++ le 2 f.d) ++
           opt 10 (t.roomTone.map (fun r => le 2 r.take ++ le 4 r.start ++ le 4 r.length)) ++ le 1 chapters.length ++
           le 1 (chapters.countP (fun e => decide (e.2.state = .queued))) ++
           le 1 (chapters.countP (fun e =>
             decide (e.2.state = .measuring ∨ e.2.state = .encoding ∨ e.2.state = .commitWait))) ++
           le 2 takes.length ++ le 2 (takes.countP (fun e => decide (e.2.state = .recording))) }) ∧
     (∀ c, 127 < c →
       exec (.chapterInfo p tag th c) s = .next (s.answered p tag 1 (s.marked p) { status := .range })) ∧
     (∀ c, c ≤ 127 → s.chapter? ⟨th, c⟩ = none →
       exec (.chapterInfo p tag th c) s =
         .next (s.answered p tag 1 (s.marked p) { status := .ok, results := [0xFF#8] })) ∧
     (∀ c k, c ≤ 127 → s.chapter? ⟨th, c⟩ = some k →
       let inLane := k.state = .measuring ∨ k.state = .encoding ∨ k.state = .commitWait
       exec (.chapterInfo p tag th c) s = .next (s.answered p tag 1 (s.marked p)
         { status := .ok,
           results := [chapterState k.state] ++
             opt 1 (if k.state = .queued ∨ inLane then some [priority k.priority] else none) ++
             opt 1 (if inLane then (s.laneOf ⟨th, c⟩).map (fun i => [BitVec.ofNat 8 i.val]) else none) ++
             opt 1 (if k.state = .queued then some [BitVec.ofNat 8 (List.idxOf ⟨th, c⟩ (match k.priority with
               | .normal => s.queue.normal
               | .rush => s.queue.rush))] else none) ++
             le 4 k.headPad ++ le 4 k.tailPad ++ le 4 (timelineLength k.headPad k.segments k.tailPad) ++
             le 4 ((timelineLength k.headPad k.segments k.tailPad + 1023) / 1024) ++ le 1 k.segments.length ++
             k.segments.flatMap segment ++ [mark k.published] ++ le 2 k.serial ++ [mark k.stale] ++
             (match Tab.look s.rendMem.sets (th * 128 + c) with
               | none => [0#8]
               | some set => le 1 set.images.length ++
                 set.images.flatMap (fun im => le 1 im.rendition ++ le 4 im.byteCount)) })) ∧
     (∀ take f x, s.take? th take = some x →
       (x.groups.length ≤ f →
         exec (.takeInfo p tag th take f) s = .next (s.answered p tag 4 (s.marked p) { status := .range })) ∧
       (f < x.groups.length →
         let entries := (x.groups.drop f).take 256
         exec (.takeInfo p tag th take f) s = .next (s.answered p tag 4 (s.marked p)
           { status := .ok,
             results := le 2 take ++ [BitVec.ofNat 8 x.title, match x.state with
                 | .recording => 0#8 | .closed => 1#8 | .faulted => 2#8] ++ le 4 x.blocks ++ opt 2 (x.tail.map (le 2)) ++
               opt 4 (if x.state = .recording then none else some (le 4 ((x.blocks - 1) * 1024 + x.tail.getD 0))) ++
               opt 4 (x.inFlight.map (le 4)) ++ le 2 x.groups.length ++ le 2 (x.groups.countP (fun e => decide (e = none))) ++
               le 2 entries.length ++ entries.flatMap (fun e => match e with
                 | none => List.replicate 6 0#8
                 | some g => 1#8 :: (le 2 g ++ le 2 (s.takeMem.group g).refs ++ [mark (s.takeMem.group g).faulted])) })))) ∧
  (∀ (p : Port) (tag : Byte) (s : State), s.listens p → s.allows p .query →
     exec (.laneInfo p tag) s = .next (s.answered p tag 0 (s.marked p)
       { status := .ok,
         results := le 1 s.queue.count ++ le 1 s.queue.rush.length ++ le 1 s.queue.normal.length ++ pattern s.wheel.pattern ++
           opt 4 (s.wheel.pending.map pattern) ++
           [BitVec.ofNat 8 ((if s.lanes.e0.enabled then 1 else 0) + (if s.lanes.e1.enabled then 2 else 0) +
             (if s.lanes.e2.enabled then 4 else 0) + (if s.lanes.e3.enabled then 8 else 0))] ++
           ([0, 1, 2, 3] : List (Fin 4)).flatMap (fun i =>
             let l : Lane := s.lanes.get i
             let named := some i ∈ [s.wheel.pattern.e0, s.wheel.pattern.e1, s.wheel.pattern.e2, s.wheel.pattern.e3]
             let gain : Option (GainRecord × Nat) := match (l.render.map (fun r => r.stage) : Option Stage) with
               | some (.encode _ g n _) => some (g, n)
               | some (.commitWait g n _) => some (g, n)
               | _ => none
             [laneState l.state, mark (decide (l.render = none ∧ l.enabled = true ∧ named))] ++
             opt 1 (if l.state = .measure ∨ l.state = .encode then
               some [if l.enabled = false then 1#8 else if named then 0#8 else 2#8] else none) ++
             opt 2 (l.render.map (fun r => [BitVec.ofNat 8 r.chapter.title, BitVec.ofNat 8 r.chapter.index])) ++
             opt 1 (l.render.map (fun r => [priority r.origin])) ++
             opt 4 (l.render.map (fun r => le 4 r.pass)) ++
             opt 4 (l.render.map (fun r => le 4 r.timeline.blocks)) ++
             opt 2 (gain.map (fun g => signed g.1.g)) ++
             opt 2 (gain.map (fun g => le 2 ((if g.1.silent then 1 else 0) + (if g.1.gainClamped then 2 else 0) +
               (if g.1.peakLimited then 4 else 0) + (if g.1.underTarget then 8 else 0)))) ++
             opt 4 (gain.map (fun g => le 4 g.2)) ++
             (match l.render with
               | none => [0#8]
               | some r => le 1 r.stage.encoders.length ++ r.stage.encoders.flatMap (fun e =>
                   le 1 e.rendition ++ le 2 e.credit ++ [mark e.starved] ++ le 4 e.starvedFrames ++ le 4 e.pages.length)) ++
             opt 17 (l.lastEnd.map (fun e =>
               [BitVec.ofNat 8 e.chapter.title, BitVec.ofNat 8 e.chapter.index, match e.way with
                 | .committed => 0#8 | .failed => 1#8 | .cancelled => 2#8 | .aborted => 3#8 | .deleted => 4#8,
                 laneState e.laneState] ++
               opt 1 (e.cause.map (fun c => [match c with | .takeFault => 0#8 | .noSpace => 1#8])) ++
               opt 2 (e.group.map (le 2)) ++ opt 4 (e.position.map (le 4)) ++ opt 2 (e.serial.map (le 2))))) })) ∧
  (∀ (p : Port) (tag : Byte) (s : State), s.listens p → s.allows p .query →
     let groups := fun (st : GroupState) => s.takeMem.groups.countP (fun g => decide (g.state = st))
     let holds := fun (q : Port) => (s.holdTable.holds.filter (fun e => decide (e.2.owner = q))).length
     exec (.deviceStatus p tag) s = .next (s.answered p tag 0 (s.marked p)
       { status := .ok,
         results := [0x40#8, 0x72#8, match s.cause with | .powerOn => 0#8 | .pin => 1#8] ++
           [Port.a, Port.b, Port.c].map (fun q =>
             match (s.port q).role with | .ingest => 0#8 | .edit => 1#8 | .delivery => 2#8 | .full => 3#8) ++
           le 2 (groups .clean) ++ le 2 (groups .dirty) ++ le 1 (groups .erasing) ++ le 2 (groups .owned) ++
           le 2 (groups .bad) ++ [if s.takeMem.scrub then 1#8 else 0#8] ++ le 2 s.takeMem.takes.length ++
           le 4 s.rendMem.pool.length ++ le 1 s.queue.count ++ le 1 s.holdTable.holds.length ++ le 1 (holds .a) ++
           le 1 (holds .b) ++ le 1 (holds .c) ++ le 1 s.titles.length }))

/-! ### Port resets -/

/-- PORT-RESET: the lists and the mask are emptied, then the port's holds end one after the other in ascending slot number, each with
the commit that it alone kept waiting; the reply gives the number of holds ended. The whole state after it, and what it leaves of
each block. That the number has 1 byte is the model's inference (log entry 6). -/
def Obligations.PortReset : Prop :=
  ∀ (p : Port) (tag : Byte) (s : State), s.listens p → s.allows p .query → s.TableLaw → s.MemoryLaw →
    ∃ t, exec (.portReset p tag) s = .next t ∧
      (∃ u, holdsEnded (s.changePort p (fun q => { q with
          lists := ⟨[], [], [], [], []⟩, mask := ⟨false, false, false, false, false⟩, sequence := .none }))
          (s.endsAtReset p) u ∧
        t = u.answered p tag 0 (s.marked p) { status := .ok, results := [BitVec.ofNat 8 (s.endsAtReset p).length] }) ∧
      portResetLeaves s t p ∧
      (t.port p).state = .replyReady ∧
      (t.port p).reply = some ⟨.ok, tag, { discardReset := s.marked p }, [BitVec.ofNat 8
        (s.holdTable.holds.filter (fun e => decide (e.2.owner = p) && e.2.read.isNone)).length]⟩ ∧
      (t.port p).operation = (s.port p).operation ∧ (t.port p).discardMark = (s.port p).discardMark

/-- PORT_RESET_LINE: the transaction is abandoned, a reply is dropped, an EXECUTING port goes on with its operation under the
discard mark, and the lists, the mask, the sequence and the holds are as for PORT-RESET. A transaction that it abandons sends the
bytes it had sent, however many, and then 0x00; one that began under the line sends 0x00 to its end; neither takes a request.
PORT_RESET_LINE_RELEASE: the line is released, and nothing else. How many bytes had been clocked is a free value, and that the 0x00 of
an abandoned transaction goes on after the release is the model's inference (log entry 7); so is it that an assertion while a device
reset is held does nothing but to abandon the transaction (log entry 11). -/
def Obligations.PortResetLines : Prop :=
  ∀ (p : Port) (s : State),
    (s.resetHeld = none → s.TableLaw → s.MemoryLaw →
      ∃ t, exec (.portResetLine p) s = .next t ∧
        (∃ u, holdsEnded (s.changePort p (fun q => { q with
            resetLine := true,
            span := spanUnderLine p q, cuts := q.cuts + 1, reply := none, state := if q.state = .executing then .executing else .idle,
            discardMark := decide (q.state = .executing),
            lists := ⟨[], [], [], [], []⟩, mask := ⟨false, false, false, false, false⟩, sequence := .none }))
            (s.endsAtReset p) u ∧ t = u.driveAttn) ∧
        portResetLeaves s t p ∧
        (t.port p).resetLine = true ∧
        (t.port p).reply = none ∧ (t.port p).operation = (s.port p).operation ∧ (t.port p).role = (s.port p).role ∧
        ((s.port p).state = .executing → (t.port p).state = .executing ∧ (t.port p).discardMark = true) ∧
        ((s.port p).state ≠ .executing → (t.port p).state = .idle ∧ (t.port p).discardMark = false)) ∧
    (∀ (rx : List Byte) (x : Nat) (sent : List Byte), (s.port p).span = some (.abandoned sent) →
      exec (.transaction p rx x) s = .next (s.changePort p (fun q => { q with
        span := none, sent := (sent ++ List.replicate rx.length 0#8).take rx.length })).driveAttn) ∧
    (s.resetHeld ≠ none → exec (.portResetLine p) s = .next (s.changePort p (fun q => { q with
      resetLine := true, span := spanUnderLine p q, cuts := q.cuts + 1 })).driveAttn) ∧
    ((s.port p).span = some .muted ∨ ((s.port p).span = none ∧ (s.port p).resetLine = true) →
      (∀ (rx : List Byte) (x : Nat), exec (.transaction p rx x) s = .next (s.changePort p (fun q => { q with
        span := none, sent := List.replicate rx.length 0#8 })).driveAttn) ∧
      (∀ (i : Instr) (tag : Byte) (r : Request), i.request? = some (p, tag, r) →
        exec i s = .next (s.changePort p (fun q => { q with
          span := none, sent := List.replicate (7 + operandLength r) 0#8 })).driveAttn)) ∧
    exec (.portResetLineRelease p) s = .next (s.changePort p (fun q => { q with resetLine := false })).driveAttn

/-- RESET_PIN_ASSERTED: from then on the reset is held: every ATTN is deasserted and every operation in flight is abandoned without a
reply; a power-on that has begun stays the cause. A transaction that it abandons takes no request, and sends the bytes it had sent,
however many. The end of the reset leaves such a transaction, and the level of each reset line, as they are. That the operations are
cleared at once and that no event inside the part does anything while it is held are the model's inferences (log entry 5), so is
what becomes of a transaction (log entry 11); what one that is lost sends from then on, and how many bytes had been clocked, is free
(log entry 7). -/
def Obligations.DeviceResetHeld : Prop :=
  (∀ (cause : ResetCause) (s : State),
    let off := fun (p : Port) => { s.port p with
      span := spanUnderReset p (s.port p), cuts := (s.port p).cuts + 1, state := .idle, reply := none, operation := none,
      discardMark := false, attn := false }
    exec (.resetPinAsserted cause) s = .next { s with
      ports := ⟨off .a, off .b, off .c⟩,
      takeMem := { s.takeMem with takes := s.takeMem.takes.map (fun e => (e.1, { e.2 with inFlight := none })) },
      holdTable := { s.holdTable with holds := s.holdTable.holds.map (fun e => (e.1, { e.2 with read := none })) },
      resetHeld := some (if s.resetHeld = some .powerOn then .powerOn else cause) }) ∧
  (∀ (i : Instr) (s : State), i.request? = none → portOf i = none → resetsDevice i = false → s.resetHeld ≠ none →
    exec i s = .next s.driveAttn) ∧
  (∀ (p : Port) (s : State), s.resetHeld ≠ none →
    exec (.programCompletion p) s = .next s.driveAttn ∧ exec (.programFault p) s = .next s.driveAttn ∧
    exec (.fetchCompletion p) s = .next s.driveAttn) ∧
  (∀ (p : Port) (rx : List Byte) (x : Nat) (before : List Byte) (s : State), (s.port p).span = some (.lost before) ∨
      (before = [] ∧ (s.port p).span = none ∧ (s.port p).resetLine = false ∧ s.resetHeld ≠ none) →
    ∃ rest, rest.length = rx.length ∧ exec (.transaction p rx x) s = .next (s.changePort p (fun q => { q with
      span := none, sent := (before ++ rest).take rx.length, cuts := q.cuts + 1 })).driveAttn) ∧
  (∀ (cause : ResetCause) (sa sb sc : Straps) (s : State), ∃ t, exec (.deviceReset cause sa sb sc) s = .next t ∧
    ∀ p, (t.port p).resetLine = (s.port p).resetLine ∧ (t.port p).span = spanUnderReset p (s.port p))

/-! ### Takes -/

/-- OPEN-TAKE: the lowest free id, with the head of the clean pool as its first group; FULL, NOT_READY. CLOSE-TAKE: BAD_STATE, BUSY,
RANGE; a take with a block becomes CLOSED with its tail, and one without gives its groups back and leaves the table. That the reply
of an empty take gives its block count of 0 in 4 bytes is the model's inference (log entry 6). -/
def Obligations.TakesOpenAndClose : Prop :=
  ∀ (p : Port) (tag : Byte) (th : Nat) (s : State) (ti : Title), s.listens p → s.allows p .take → s.title? th = some ti →
    (ti.state = .opened →
      ((∀ id, 1 ≤ id → id ≤ 1024 → Tab.look s.takeMem.takes id ≠ none) →
        exec (.openTake p tag th) s = .next (s.answered p tag 0 (s.marked p) { status := .full })) ∧
      (∀ id, 1 ≤ id → id ≤ 1024 → Tab.look s.takeMem.takes id = none →
        (∀ j, 1 ≤ j → j < id → Tab.look s.takeMem.takes j ≠ none) →
        (s.takeMem.clean = [] →
          exec (.openTake p tag th) s = .next (s.answered p tag 0 (s.marked p) { status := .notReady })) ∧
        (∀ g rest, s.takeMem.clean = g :: rest →
          exec (.openTake p tag th) s = .next (({ s with
            takeMem := { s.takeMem with
              groups := s.takeMem.groups.set g ⟨.owned, some id, some 0, 0, false⟩, clean := rest,
              takes := Tab.put s.takeMem.takes id ⟨th, .recording, 0, none, [some g], none⟩ } } : State).answered
            p tag 0 (s.marked p) { status := .ok, results := le 2 id ++ le 2 g })))) ∧
    (∀ take tail t, s.take? th take = some t →
      let no := fun st => exec (.closeTake p tag th take tail) s =
        .next (s.answered p tag 4 (s.marked p) { status := st })
      (t.state ≠ .recording → no .badState) ∧
      (t.state = .recording → t.inFlight ≠ none → no .busy) ∧
      (t.state = .recording → t.inFlight = none → tail = 0 ∨ 1024 < tail → no .range) ∧
      (t.state = .recording → t.inFlight = none → 1 ≤ tail → tail ≤ 1024 → 1 ≤ t.blocks →
        exec (.closeTake p tag th take tail) s = .next (({ s with
          takeMem := { s.takeMem with
            takes := Tab.put s.takeMem.takes take { t with state := .closed, tail := some tail } } } : State).answered
          p tag 4 (s.marked p)
          { status := .ok, results := le 4 t.blocks ++ (le 2 tail ++ le 4 ((t.blocks - 1) * 1024 + tail)) })) ∧
      (∀ g, t.state = .recording → t.inFlight = none → 1 ≤ tail → tail ≤ 1024 → t.blocks = 0 → t.groups = [some g] →
        (s.takeMem.group g).faulted = false →
        exec (.closeTake p tag th take tail) s = .next (({ s with
          takeMem := { s.takeMem with
            groups := s.takeMem.groups.set g ⟨.dirty, none, none, (s.takeMem.group g).refs, false⟩,
            dirty := s.takeMem.dirty ++ [g], takes := Tab.drop s.takeMem.takes take },
          ports := s.ports.map (fun q => if q.sequence.take? = some take then { q with sequence := .none } else q) }
          : State).answered p tag 4 (s.marked p)
          { status := .ok, flags := { freed := true }, results := [0#8, 0#8, 0#8, 0#8] })))

/-- R53: the CRC-16 of any bytes, most significant bit first, is the remainder of the bits followed by 16 zeros on division by
x^16 + x^12 + x^5 + 1; the check value over "123456789"; a block of zeros has CRC-16 0; it travels least significant byte first. -/
def Obligations.BlockChecksum : Prop :=
  let poly := fun (bits : List Bool) =>
    bits.foldl (fun (q : Polynomial (ZMod 2)) b => q * Polynomial.X + if b then 1 else 0) 0
  (∀ bs : List Byte, ∃ q : Polynomial (ZMod 2),
    poly (bs.flatMap (fun b => (List.range 8).map b.getMsbD) ++ List.replicate 16 false) =
      q * (Polynomial.X ^ 16 + Polynomial.X ^ 12 + Polynomial.X ^ 5 + 1) + poly ((List.range 16).map (crc16 bs).getMsbD)) ∧
  crc16 [0x31#8, 0x32#8, 0x33#8, 0x34#8, 0x35#8, 0x36#8, 0x37#8, 0x38#8, 0x39#8] = 0x31C3#16 ∧
  crc16 (List.replicate 3072 0#8) = 0#16 ∧
  (∀ (th take block : Nat) (data : List Byte) (crc : BitVec 16),
    operandBytes (.writeBlock th take block data crc) = le 2 take ++ le 4 block ++ data ++
      [crc.truncate 8, (crc >>> 8).truncate 8])

/-- WRITE-BLOCK: the checks in their order, with the expected index of a SEQ_MISMATCH; a taken one starts the program of its block,
after drawing the head of the clean pool where the block starts a new group. -/
def Obligations.WriteBlock : Prop :=
  ∀ (p : Port) (tag : Byte) (th take block : Nat) (data : List Byte) (crc : BitVec 16) (s : State), s.listens p →
    (data.length ≠ 3072 → exec (.writeBlock p tag th take block data crc) s =
      .next (s.answered p tag (8 + data.length) (s.marked p) { status := .malformed })) ∧
    (∀ ti t, data.length = 3072 → s.allows p .take → s.title? th = some ti → s.take? th take = some t →
      let no := fun res => exec (.writeBlock p tag th take block data crc) s =
        .next (s.answered p tag 3080 (s.marked p) res)
      let opens := block ≠ 0 ∧ block % 256 = 0
      (t.state ≠ .recording → no { status := .badState }) ∧
      (t.state = .recording → t.inFlight ≠ none → no { status := .busy }) ∧
      (t.state = .recording → t.inFlight = none →
        (crc16 data ≠ crc → no { status := .crcError }) ∧
        (crc16 data = crc → block ≠ t.blocks → no { status := .seqMismatch, results := le 4 t.blocks }) ∧
        (crc16 data = crc → block = t.blocks →
          (block = 1048576 → no { status := .full }) ∧
          (block ≠ 1048576 → opens → s.takeMem.clean = [] → no { status := .notReady }) ∧
          (block ≠ 1048576 → ¬ opens →
            exec (.writeBlock p tag th take block data crc) s = .next (({ s with
              takeMem := { s.takeMem with takes := Tab.put s.takeMem.takes take { t with inFlight := some block } } }
              : State).executes p tag 3080 (s.marked p) (.program take block data))) ∧
          (∀ g rest, block ≠ 1048576 → opens → s.takeMem.clean = g :: rest →
            exec (.writeBlock p tag th take block data crc) s = .next (({ s with
              takeMem := { s.takeMem with
                groups := s.takeMem.groups.set g ⟨.owned, some take, some t.groups.length, 0, false⟩, clean := rest,
                takes := Tab.put s.takeMem.takes take
                  { t with groups := t.groups ++ [some g], inFlight := some block } } } : State).executes
              p tag 3080 (s.marked p) (.program take block data))))))

/-- PROGRAM_COMPLETION: the block counts, and its bytes stand at its position of its group, every other byte as before.
PROGRAM_FAULT: the block does not count and the take is FAULTED with its last group marked, which stays with counted blocks, joins
the bad set as the first block of a later group, and takes the take with it as block 0. The reply is dropped under the mark. That a
failed program stores no byte is the model's choice (log entry 13), and that its reply gives FAULTED also where the take has left
the table is its inference (log entry 6). -/
def Obligations.ProgramEnds : Prop :=
  ∀ (p : Port) (tag : Byte) (dr : Bool) (take block : Nat) (data : List Byte) (s : State) (t : Take),
    s.resetHeld = none → (s.port p).operation = some ⟨tag, dr, .program take block data⟩ →
    Tab.look s.takeMem.takes take = some t →
    let ends := fun (u : State) (res : Result) => (if (s.port p).discardMark then
        u.changePort p (fun q => { q with state := .idle, operation := none, discardMark := false })
      else u.changePort p (fun q => { q with
        state := .replyReady, operation := none,
        reply := some ⟨res.status, tag, { res.flags with discardReset := dr }, res.results⟩ })).driveAttn
    (∀ g, t.groups[block / 256]? = some (some g) → Memory.wf s.takeMem.mem = true →
      let addr := (g * 256 + block % 256) * 3072
      ∃ mem, exec (.programCompletion p) s = .next (ends { s with
          takeMem := { s.takeMem with
            takes := Tab.put s.takeMem.takes take { t with blocks := t.blocks + 1, inFlight := none }, mem := mem } }
          { status := .ok, results := le 4 (t.blocks + 1) }) ∧
        (∀ j, j < data.length → Memory.read mem (addr + j) = data.getD j 0) ∧
        (∀ a, a < addr ∨ addr + data.length ≤ a → Memory.read mem a = Memory.read s.takeMem.mem a)) ∧
    (∀ g, t.groups.getLast? = some (some g) →
      (block ≠ 0 → block % 256 ≠ 0 → exec (.programFault p) s = .next (ends { s with
          takeMem := { s.takeMem with
            groups := s.takeMem.groups.set g { s.takeMem.group g with faulted := true },
            takes := Tab.put s.takeMem.takes take { t with state := .faulted, tail := some 1024, inFlight := none } } }
          { status := .programFault, results := le 4 t.blocks ++ (2#8 :: le 2 g) })) ∧
      (g < s.takeMem.groups.length → block ≠ 0 → block % 256 = 0 → exec (.programFault p) s = .next (ends { s with
          takeMem := { s.takeMem with
            groups := s.takeMem.groups.set g ⟨.bad, none, none, (s.takeMem.group g).refs, false⟩,
            bad := insertBad g s.takeMem.bad,
            takes := Tab.put s.takeMem.takes take
              { t with state := .faulted, tail := some 1024, inFlight := none, groups := t.groups.dropLast } } }
          { status := .programFault, results := le 4 t.blocks ++ (2#8 :: le 2 g) })) ∧
      (g < s.takeMem.groups.length → block = 0 → t.groups = [some g] → exec (.programFault p) s = .next (ends { s with
          takeMem := { s.takeMem with
            groups := s.takeMem.groups.set g ⟨.bad, none, none, (s.takeMem.group g).refs, false⟩,
            bad := insertBad g s.takeMem.bad, takes := Tab.drop s.takeMem.takes take },
          ports := s.ports.map (fun q => if q.sequence.take? = some take then { q with sequence := .none } else q) }
          { status := .programFault, flags := { freed := true }, results := le 4 t.blocks ++ (2#8 :: le 2 g) })))

/-- ERASE_START: the empty engine takes the head of the dirty list. ERASE_COMPLETION and ERASE_FAULT: the group joins the tail of the
clean pool, or the bad set; the erase of group 32,767 ends the scrub; no byte of another group changes. That ERASE_START changes
nothing with the engine busy or no group dirty, and an end of an erase nothing with the engine empty, is the model's choice (log
entry 9). -/
def Obligations.EraseEngine : Prop :=
  ∀ (s : State), s.resetHeld = none →
    (s.takeMem.engine ≠ none ∨ s.takeMem.dirty = [] → exec .eraseStart s = .next s.driveAttn) ∧
    (∀ g rest, s.takeMem.engine = none → s.takeMem.dirty = g :: rest →
      exec .eraseStart s = .next ({ s with
        takeMem := { s.takeMem with
          groups := s.takeMem.groups.set g { s.takeMem.group g with state := .erasing }, dirty := rest, engine := some g } }
        : State).driveAttn) ∧
    (s.takeMem.engine = none → exec .eraseCompletion s = .next s.driveAttn ∧ exec .eraseFault s = .next s.driveAttn) ∧
    (∀ g, s.takeMem.engine = some g →
      (∃ mem, exec .eraseCompletion s = .next ({ s with
          takeMem := { s.takeMem with
            groups := s.takeMem.groups.set g { s.takeMem.group g with state := .clean }, clean := s.takeMem.clean ++ [g],
            engine := none, scrub := s.takeMem.scrub && decide (g ≠ 32767), mem := mem } } : State).driveAttn ∧
        ∀ a, a < g * 786432 ∨ (g + 1) * 786432 ≤ a → Memory.read mem a = Memory.read s.takeMem.mem a) ∧
      exec .eraseFault s = .next ({ s with
        takeMem := { s.takeMem with
          groups := s.takeMem.groups.set g { s.takeMem.group g with state := .bad }, bad := insertBad g s.takeMem.bad,
          engine := none, scrub := s.takeMem.scrub && decide (g ≠ 32767) } } : State).driveAttn)

/-! ### Discards -/

/-- DISCARD-FIRST: the marks, whatever they were, and the entry; RANGE. DISCARD-LAST: the checks in their order, the marks and what
the run holds. A refused one returns the sequence to NONE. That each of the three numbers of a DISCARD-LAST reply has 2 bytes is the
model's choice (log entry 19). -/
def Obligations.DiscardMarks : Prop :=
  ∀ (p : Port) (tag : Byte) (th take idx : Nat) (s : State) (ti : Title), s.listens p → s.allows p .take →
    s.title? th = some ti →
    let noLast := fun st => exec (.discardLast p tag th take idx) s =
      .next (s.answered p tag 4 (s.marked p) { status := st })
    (∀ t, s.take? th take = some t →
      (t.groups.length ≤ idx → exec (.discardFirst p tag th take idx) s =
        .next (s.answered p tag 4 (s.marked p) { status := .range })) ∧
      (∀ e, t.groups[idx]? = some e → exec (.discardFirst p tag th take idx) s =
        .next (s.replied p tag 4 (.firstSet take idx) (s.marked p)
          { status := .ok, results := le 2 take ++ (le 2 idx ++ match e with
            | none => [0#8, 0#8, 0#8, 0#8, 0#8, 0#8]
            | some g => 1#8 :: (le 2 g ++ (le 2 (s.takeMem.group g).refs ++
                [if (s.takeMem.group g).faulted then 1#8 else 0#8]))) }))) ∧
    ((s.port p).sequence = .none → noLast .sequence) ∧
    (∀ x y z, (s.port p).sequence = .bothSet x y z → noLast .sequence) ∧
    (∀ x first, (s.port p).sequence = .firstSet x first →
      (s.take? th take = none → noLast .badHandle) ∧
      (∀ t, s.take? th take = some t →
        (take ≠ x ∨ idx < first → noLast .sequence) ∧
        (take = x → first ≤ idx → t.groups.length ≤ idx → noLast .range) ∧
        (take = x → first ≤ idx → idx < t.groups.length →
          exec (.discardLast p tag th take idx) s =
            .next (s.replied p tag 4 (.bothSet take first idx) false
              { status := .ok, results := le 2 take ++ (le 2 first ++ (le 2 idx ++
                (le 2 ((List.range' first (idx + 1 - first)).countP (fun i => decide (t.groups[i]? = some none))) ++
                (le 2 ((List.range' first (idx + 1 - first)).countP (fun i => match t.groups[i]? with
                  | some (some g) => decide (0 < (s.takeMem.group g).refs)
                  | _ => false)) ++
                le 2 ((List.range' first (idx + 1 - first)).countP (fun i => match t.groups[i]? with
                  | some (some _) => decide (t.state = .recording ∧ i + 1 = t.groups.length)
                  | _ => false)))))) }))))

/-- DISCARD-COMMIT: SEQUENCE and BAD_HANDLE; a taken one makes holes of the entries of the run whose groups have count 0 and are not
current, frees those groups in order, and drops a take that is not RECORDING and owns no group any more. The port has the reply, its
transaction has ended, and every ATTN is as the lists and masks give it; nothing else changes. An index past the end of the group
list counts as a hole. That each of the five counts of the reply has 2 bytes is the model's choice (log entry 19). -/
def Obligations.DiscardCommit : Prop :=
  ∀ (p : Port) (tag : Byte) (th : Nat) (s : State) (ti : Title), s.listens p → s.allows p .take →
    s.title? th = some ti → ti.state = .opened →
    let no := fun st => exec (.discardCommit p tag th) s = .next (s.answered p tag 0 (s.marked p) { status := st })
    ((s.port p).sequence = .none → no .sequence) ∧
    (∀ x y, (s.port p).sequence = .firstSet x y → no .sequence) ∧
    (∀ take first last, (s.port p).sequence = .bothSet take first last →
      (s.take? th take = none → no .badHandle) ∧
      (∀ k, s.take? th take = some k → s.GroupLaw → ∃ t, exec (.discardCommit p tag th) s = .next t ∧
        let current := fun (i : Nat) => decide (k.state = .recording ∧ i + 1 = k.groups.length)
        let run := List.range' first (last + 1 - first)
        let goes := fun (i : Nat) => match k.groups[i]? with
          | some (some g) => decide ((s.takeMem.group g).refs = 0) && !current i
          | _ => false
        let gone := run.filterMap (fun i => if goes i then (k.groups[i]?).join else none)
        let toDirty := gone.filter (fun g => !(s.takeMem.group g).faulted)
        let toBad := gone.filter (fun g => (s.takeMem.group g).faulted)
        let groups := k.groups.mapIdx (fun i e => if first ≤ i ∧ i ≤ last ∧ goes i = true then none else e)
        let emptied := decide (k.state ≠ .recording) && decide (groups.filterMap id = [])
        let referenced := run.countP (fun i => match k.groups[i]? with
          | some (some g) => decide (0 < (s.takeMem.group g).refs)
          | _ => false)
        let asCurrent := run.countP (fun i => match k.groups[i]? with
          | some (some g) => decide ((s.takeMem.group g).refs = 0) && current i
          | _ => false)
        t.takeMem.takes = (if emptied then Tab.drop s.takeMem.takes take
          else Tab.put s.takeMem.takes take { k with groups := groups }) ∧
        t.takeMem.dirty = s.takeMem.dirty ++ toDirty ∧ t.takeMem.bad.Perm (s.takeMem.bad ++ toBad) ∧
        t.takeMem.groups.length = s.takeMem.groups.length ∧
        (∀ g, g < s.takeMem.groups.length → t.takeMem.group g =
          if g ∈ toBad then ⟨.bad, none, none, 0, false⟩ else if g ∈ toDirty then ⟨.dirty, none, none, 0, false⟩
          else s.takeMem.group g) ∧
        t.takeMem.clean = s.takeMem.clean ∧ t.takeMem.engine = s.takeMem.engine ∧ t.takeMem.scrub = s.takeMem.scrub ∧
        t.takeMem.mem = s.takeMem.mem ∧ t.titles = s.titles ∧ t.chapters = s.chapters ∧ t.queue = s.queue ∧
        t.lanes = s.lanes ∧ t.wheel = s.wheel ∧ t.rendMem = s.rendMem ∧ t.holdTable = s.holdTable ∧ t.cause = s.cause ∧
        t.resetHeld = s.resetHeld ∧ t.pending = s.pending ∧ (t.port p).sequence = .none ∧
        (∀ q, (t.port q).lists = (s.port q).lists ∧ (t.port q).mask = (s.port q).mask ∧
          (t.port q).role = (s.port q).role ∧ (t.port q).operation = (s.port q).operation ∧
          (t.port q).discardMark = (s.port q).discardMark ∧ (t.port q).resetLine = (s.port q).resetLine ∧
          (t.port q).cuts = (s.port q).cuts) ∧
        (∀ q, q ≠ p → (t.port q).state = (s.port q).state ∧ (t.port q).reply = (s.port q).reply ∧
          (t.port q).span = (s.port q).span ∧ (t.port q).sent = (s.port q).sent ∧ (t.port q).sequence =
            if emptied = true ∧ (s.port q).sequence.take? = some take then .none else (s.port q).sequence) ∧
        (∀ q, (t.port q).attn = (t.driveAttn.port q).attn) ∧
        (t.port p).state = .replyReady ∧ (t.port p).span = none ∧
        (t.port p).sent = 0x10#8 :: List.replicate 6 0#8 ∧
        (t.port p).reply = some ⟨.ok, tag, { skipped := decide (0 < referenced + asCurrent), freed := emptied },
          le 2 gone.length ++ (le 2 referenced ++ (le 2 asCurrent ++
            (le 2 (run.countP (fun i => match k.groups[i]? with
              | some (some _) => false
              | _ => true)) ++ le 2 toBad.length)))⟩))

/-! ### Dispatch and the slots of the wheel -/

/-- DISPATCH: the head of RUSH, or of NORMAL when RUSH is empty, goes to the lowest dispatchable lane, which starts its measure pass
with copies of the title's parameters and of the timeline. That a DISPATCH with no lane or no chapter changes nothing is the model's
choice (log entry 9). -/
def Obligations.Dispatch : Prop :=
  ∀ (s : State), s.resetHeld = none →
    let ready := fun (i : Fin 4) => (s.lanes.get i).render = none ∧ (s.lanes.get i).enabled = true ∧
      some i ∈ [s.wheel.pattern.e0, s.wheel.pattern.e1, s.wheel.pattern.e2, s.wheel.pattern.e3]
    ((∀ i, ¬ ready i) ∨ (s.queue.rush = [] ∧ s.queue.normal = []) → exec .dispatch s = .next s.driveAttn) ∧
    (∀ i c ti k, ready i → (∀ j, j < i → ¬ ready j) → s.title? c.title = some ti → s.chapter? c = some k →
      let gives := fun (origin : Priority) (q : RenderQueue) => exec .dispatch s = .next ({ s with
        queue := q,
        lanes := s.lanes.set i ⟨true, some ⟨c, origin, ⟨ti.loudness, ti.profiles, ti.roomTone⟩,
          ⟨k.headPad, k.segments, k.tailPad⟩, 0, .measure ⟨0, none⟩ ⟨0, 0, 0, List.replicate 901 ⟨0, 0⟩⟩⟩,
          (s.lanes.get i).lastEnd⟩,
        chapters := Tab.put s.chapters c.key { k with state := .measuring } } : State).driveAttn
      (∀ rest, s.queue.rush = c :: rest → gives .rush { s.queue with rush := rest }) ∧
      (∀ rest, s.queue.rush = [] → s.queue.normal = c :: rest → gives .normal { s.queue with normal := rest }))

/-- WHEEL_SLOT: the wheel moves on, and takes up a pending pattern at the end of its turn. The slot goes unused for NONE, a disabled
or IDLE lane and a lane in COMMIT_WAIT. In MEASURE the lane's block joins the meter; the last one ends the pass with the gain
record and the encoders in their starting state. A read error fails the render with TAKE_FAULT, in ENCODE as well. -/
def Obligations.MeasureSlot : Prop :=
  ∀ (s : State) (f : Option Nat), s.resetHeld = none →
    let entry := s.wheel.pattern.get s.wheel.slot
    let moved := fun (u : State) => ({ u with wheel := wheelAfter s.wheel }).driveAttn
    (entry = none → exec (.wheelSlot f) s = .next (moved s)) ∧
    (∀ i, entry = some i →
      (s.lanes.get i).enabled = false ∨ (s.lanes.get i).render = none ∨
        (∃ r g n es, (s.lanes.get i).render = some r ∧ r.stage = .commitWait g n es) →
      exec (.wheelSlot f) s = .next (moved s)) ∧
    (∀ i r, entry = some i → (s.lanes.get i).enabled = true → (s.lanes.get i).render = some r →
      (∀ a m held xs, r.stage = .measure a m →
        buildBlock s.takeMem f (blockSources r.timeline r.params.roomTone r.pass) a.held 0 = .complete held xs →
        let m' := m.addBlock xs (decide (r.pass % 4 = 3 ∨ r.pass + 1 = r.timeline.blocks))
        (r.pass + 1 ≠ r.timeline.blocks →
          exec (.wheelSlot f) s = .next (moved { s with
            lanes := s.lanes.set i ⟨true, some { r with
              pass := r.pass + 1, stage := .measure ⟨(r.pass + 1) * 1024, held⟩ m' }, (s.lanes.get i).lastEnd⟩ })) ∧
        (r.pass + 1 = r.timeline.blocks →
          exec (.wheelSlot f) s = .next (moved { s with
            lanes := s.lanes.set i ⟨true, some { r with
              pass := 0,
              stage := .encode ⟨0, none⟩ (gainRecord r.params.loudness (integrated m'.bins r.params.loudness.absGate)
                (peakLevel m'.peak)) 0 (r.params.profiles.mapIdx (fun j q =>
                  ⟨j, q, q.cmax, false, 0, 0, 64, 0xFFFFFFFF#32, [], none, []⟩)) }, (s.lanes.get i).lastEnd⟩,
            chapters := Tab.change s.chapters r.chapter.key (fun k => { k with state := .encoding }) }))) ∧
      (∀ a g, (∃ m, r.stage = .measure a m) ∨ (∃ gr n es, r.stage = .encode a gr n es) →
        buildBlock s.takeMem f (blockSources r.timeline r.params.roomTone r.pass) a.held 0 = .readError g →
        exec (.wheelSlot f) s = .next (moved (({ s with
          takeMem := { s.takeMem with groups := s.takeMem.groups.set g { s.takeMem.group g with faulted := true } } }
          : State).failedRender i r .takeFault (some g) (some r.pass)))))

/-- WHEEL_SLOT in ENCODE: every encoder takes the gained frame, with the pages drawn for it; the last frame restores, writes the
headers and commits, or waits in COMMIT_WAIT for the holds; an empty pool fails the render with NO_SPACE. -/
def Obligations.EncodeSlot : Prop :=
  ∀ (s : State) (f : Option Nat) (i : Fin 4) (r : Render) (a : Assembly) (gain : GainRecord) (n : Nat) (es : List Encoder)
    (held : Option HeldBlock) (xs : List Int), s.resetHeld = none →
    s.wheel.pattern.get s.wheel.slot = some i → (s.lanes.get i).enabled = true → (s.lanes.get i).render = some r →
    r.stage = .encode a gain n es →
    buildBlock s.takeMem f (blockSources r.timeline r.params.roomTone r.pass) a.held 0 = .complete held xs →
    let moved := fun (u : State) => ({ u with wheel := wheelAfter s.wheel }).driveAttn
    let ys := gainBlock gain.q xs
    let n' := n + saturations gain.q xs
    let v := isVoiced r.params.loudness.silence ys
    let drawn := drawPages v es s.rendMem.pool
    let taken := drawn.1.map (fun e => e.takeFrame v ys r.pass)
    let crossed := fun (l : NoticeLists) =>
      l.postCrossings r.chapter (drawn.1.filterMap (fun e => e.crossing v r.pass))
    let framed := writeFrames s.rendMem.mem v ys drawn.1
    let last := taken.map (fun e => { e with starved := false })
    let headed := writeHeaders framed (match s.title? r.chapter.title with | none => 0 | some t => t.catalogue) r gain n' taken
    let ended := fun (l : NoticeLists) => (crossed l).postCrossings r.chapter (endedRestores taken)
    (drawn.2.2 = false → exec (.wheelSlot f) s = .next (moved
      (({ s with rendMem := { s.rendMem with pool := drawn.2.1 } } : State).failedRender i
        { r with stage := .encode a gain n' drawn.1 } .noSpace none none))) ∧
    (drawn.2.2 = true → r.pass + 1 ≠ r.timeline.blocks → exec (.wheelSlot f) s = .next (moved { s with
      lanes := s.lanes.set i ⟨true, some { r with
        pass := r.pass + 1, stage := .encode ⟨(r.pass + 1) * 1024, held⟩ gain n' taken }, (s.lanes.get i).lastEnd⟩,
      rendMem := { s.rendMem with pool := drawn.2.1, mem := framed },
      ports := s.ports.notify crossed })) ∧
    (drawn.2.2 = true → r.pass + 1 = r.timeline.blocks →
      (∀ e, e ∈ s.holdTable.holds → e.2.chapter = r.chapter → exec (.wheelSlot f) s = .next (moved { s with
        lanes := s.lanes.set i ⟨true, some { r with
          pass := r.pass + 1, stage := .commitWait gain n' last }, (s.lanes.get i).lastEnd⟩,
        rendMem := { s.rendMem with pool := drawn.2.1, mem := headed },
        chapters := Tab.change s.chapters r.chapter.key (fun k => { k with state := .commitWait }),
        ports := s.ports.notify ended })) ∧
      (∀ k, (∀ e ∈ s.holdTable.holds, e.2.chapter ≠ r.chapter) → s.chapter? r.chapter = some k →
        Memory.wf s.rendMem.mem = true →
        let serial := if k.serial = 0 ∨ k.serial = 65535 then 1 else k.serial + 1
        ∃ mem, serialStored headed mem last serial ∧ exec (.wheelSlot f) s = .next (moved (({ s with
            rendMem := { s.rendMem with pool := drawn.2.1, mem := headed }, ports := s.ports.notify ended }
            : State).committedTo i { r with stage := .encode a gain n' last } serial mem))))

/-! ### Assembly -/

/-- The blocks of a chapter, one after the other, are the samples of its timeline in order, each block but the last with 1,024 of
them; the positions of the parts make up the length. The parts in their order, and where the sample at an offset of a part comes
from: of a segment, the take sample with the weight of the fade that covers it; of a pad or gap, the room tone, looped from its
start, or nothing. -/
def Obligations.BlocksMakeTheTimeline : Prop :=
  ∀ (t : Timeline) (tone : Option RoomSpan),
    t.length = t.headPad + (t.segments.map (fun g => g.length)).sum + (t.segments.dropLast.map (fun g => g.gap)).sum +
      t.tailPad ∧
    t.blocks = t.length / 1024 + (if t.length % 1024 = 0 then 0 else 1) ∧
    (t.parts.map (fun x => x.length)).sum = t.length ∧
    (List.range t.blocks).flatMap (blockSources t tone) = (List.range t.length).map (sourceAt tone t.parts) ∧
    (∀ n, n + 1 < t.blocks → (blockSources t tone n).length = 1024) ∧
    (1 ≤ t.length → 1 ≤ t.blocks ∧ (blockSources t tone (t.blocks - 1)).length = t.length - (t.blocks - 1) * 1024 ∧
      t.length - (t.blocks - 1) * 1024 ≤ 1024) ∧
    t.parts = .tone t.headPad :: ((t.segments.flatMap (fun g => [.segment g, .tone g.gap])).dropLast ++ [.tone t.tailPad]) ∧
    (∀ (a b : List Part) (n d : Nat), d < n →
      sourceAt tone (a ++ .tone n :: b) ((a.map (fun x => x.length)).sum + d) = match tone with
        | none => .zero
        | some r => .sample r.take (r.start + d % r.length) none) ∧
    (∀ (a b : List Part) (g : Segment) (d : Nat), d < g.length →
      sourceAt tone (a ++ .segment g :: b) ((a.map (fun x => x.length)).sum + d) = .sample g.take (g.start + d)
        (if d < g.fadeIn then some ((d + 1) * 65536 / (g.fadeIn + 1))
         else if g.length - 1 - d < g.fadeOut then some ((g.length - 1 - d + 1) * 65536 / (g.fadeOut + 1))
         else none))

/-- A block that is completed holds the values its sources have in take memory, whichever take block was held before and whichever
reads were made, and leaves a true held block; so the two passes hand over the same samples. A fade weight is the floor of
(k + 1) × 65,536 / (F + 1), from 1 to 65,535; a weighted sample is the floor of x × w / 65,536 and lies between the sample and 0. -/
def Obligations.AssemblyBuilds : Prop :=
  (∀ (m : TakeMemory) (f : Option Nat) (src : List Source) (held held' : Option HeldBlock) (reads : Nat) (xs : List Int),
    heldTrue m held → buildBlock m f src held reads = .complete held' xs →
    heldTrue m held' ∧ xs = src.map (sourceValue m)) ∧
  (∀ k f : Nat, fadeWeight k f = (k + 1) * 65536 / (f + 1) ∧
    (k < f → f ≤ 48000 → 1 ≤ fadeWeight k f ∧ fadeWeight k f ≤ 65535)) ∧
  (∀ (w : Nat) (x : Int), weigh (some w) x = ⌊(x : ℚ) * w / 65536⌋ ∧ weigh none x = x) ∧
  (∀ (w : Nat) (x : Int), w ≤ 65536 → (0 ≤ x → 0 ≤ weigh (some w) x ∧ weigh (some w) x ≤ x) ∧
    (x < 0 → x ≤ weigh (some w) x ∧ weigh (some w) x ≤ 0))

/-! ### Loudness and gain -/

/-- R113: the level of an energy is the nearest integer to 100 × log10(E / 2^46), halfway rounding up, at least −900; it is the greatest
n from −899 to 0 whose threshold E reaches; it never decreases. R114: the peak level of a magnitude, the same with 200 and 2^23, is
the level of the energy of that magnitude. -/
def Obligations.Levels : Prop :=
  ((∀ e : Nat, 1 ≤ e → e ≤ 2 ^ 46 → energyLevel e = max (-900) ⌊100 * Real.logb 10 ((e : ℝ) / 2 ^ 46) + 1 / 2⌋) ∧
   energyLevel 0 = -900 ∧ energyLevel (2 ^ 46) = 0 ∧
   (∀ e : Nat, -900 ≤ energyLevel e ∧ energyLevel e ≤ 0) ∧
   (∀ (e : Nat) (n : Int), -899 ≤ n → n ≤ 0 →
     (n ≤ energyLevel e ↔ (2 : ℝ) ^ 46 * (10 : ℝ) ^ ((2 * (n : ℝ) - 1) / 200) ≤ (e : ℝ))) ∧
   (∀ e e' : Nat, e ≤ e' → energyLevel e ≤ energyLevel e')) ∧
  ((∀ p : Nat, 1 ≤ p → p ≤ 8388608 → peakLevel p = max (-900) ⌊200 * Real.logb 10 ((p : ℝ) / 8388608) + 1 / 2⌋) ∧
   peakLevel 0 = -900 ∧ peakLevel 8388608 = 0 ∧
   (∀ (p : Nat) (n : Int), -899 ≤ n → n ≤ 0 →
     (n ≤ peakLevel p ↔ (8388608 : ℝ) * (10 : ℝ) ^ ((2 * (n : ℝ) - 1) / 400) ≤ (p : ℝ))) ∧
   (∀ p : Nat, peakLevel p = energyLevel (p ^ 2)))

/-- R125: the gain factor is the nearest integer to 10^(G / 200) × 2^20, halfway rounding up, from 104,858 to 16,618,810. It is
computed with the gain record, for the record's own gain. A gain of 0 gives 2^20 exactly, and leaves every sample as it is. -/
def Obligations.GainFactor : Prop :=
  (∀ g : Int, -200 ≤ g → g ≤ 240 →
    (gainFactor g : Int) = ⌊(10 : ℝ) ^ ((g : ℝ) / 200) * 2 ^ 20 + 1 / 2⌋ ∧ 104858 ≤ gainFactor g ∧ gainFactor g ≤ 16618810) ∧
  (gainFactor (-200) = 104858 ∧ gainFactor (-60) = 525533 ∧ gainFactor 0 = 2 ^ 20 ∧ gainFactor 1 = 1060718 ∧
    gainFactor 22 = 1350828 ∧ gainFactor 60 = 2092184 ∧ gainFactor 240 = 16618810) ∧
  (∀ (l : Loudness) (lint : Option Int) (lp : Int), (gainRecord l lint lp).q = gainFactor (gainRecord l lint lp).g) ∧
  (∀ x : Int, gained (gainFactor 0) x = x) ∧
  (∀ xs : List Int, (∀ x ∈ xs, -8388608 ≤ x ∧ x ≤ 8388607) → gainBlock (gainFactor 0) xs = xs)

/-- The meter: a block raises the peak and extends the open quad, and at the end of a quad its mean energy joins the bin of its
level. The integrated loudness: the level of the mean of the bins that pass the absolute gate and the relative gate 100 below the
level of the mean of those that pass the absolute gate; SILENT where none passes it. The gain stage: each sample by the factor,
rounded, halfway up, and saturated, and how many samples it saturates. The gain: the raw gain clamped to −200 to 240, lowered where
the peak would pass the ceiling, with its flags; under the ranges of the title's fields the gain stays from −200 to 240 and the peak
and the output loudness under the ceiling. -/
def Obligations.MeterAndGain : Prop :=
  (∀ (m : Meter) (xs : List Int),
    m.addBlock xs false = ⟨xs.foldl (fun p x => max p x.natAbs) m.peak, m.quadSum + (xs.map (fun x => x.natAbs ^ 2)).sum,
      m.quadCount + xs.length, m.bins⟩ ∧
    (let e := (m.quadSum + (xs.map (fun x => x.natAbs ^ 2)).sum) / (m.quadCount + xs.length)
     m.addBlock xs true = ⟨xs.foldl (fun p x => max p x.natAbs) m.peak, 0, 0,
       m.bins.modify (energyLevel e + 900).toNat (fun b => ⟨b.count + 1, b.sum + e⟩)⟩)) ∧
  (∀ (bins : List Bin) (gate : Int), bins.length = 901 → -900 ≤ gate → gate ≤ 0 →
    let from_ := fun (least : Int) => (List.range 901 : List Nat).filter (fun (n : Nat) => decide (least ≤ (n : Int) - 900))
    let count := fun (least : Int) => ((from_ least).map (fun n => (bins.getD n ⟨0, 0⟩).count)).sum
    let mean := fun (least : Int) => ((from_ least).map (fun n => (bins.getD n ⟨0, 0⟩).sum)).sum / count least
    integrated bins gate = if count gate = 0 then none
      else some (energyLevel (mean (max gate (energyLevel (mean gate) - 100))))) ∧
  (∀ (q : Nat) (xs : List Int),
    let y := fun (x : Int) => ⌊((x : ℚ) * q + 524288) / 1048576⌋
    gainBlock q xs = xs.map (fun x => max (-8388608) (min 8388607 (y x))) ∧
    saturations q xs = xs.countP (fun x => decide (y x < -8388608 ∨ 8388607 < y x))) ∧
  (∀ (l : Loudness) (lint : Option Int) (lp : Int),
    let raw := match lint with | none => 0 | some x => l.target - x
    let clamped := max (-200) (min 240 raw)
    let r := gainRecord l lint lp
    r.g = (if l.ceiling < lp + clamped then l.ceiling - lp else clamped) ∧
    (r.gainClamped = true ↔ clamped ≠ raw) ∧ (r.peakLimited = true ↔ l.ceiling < lp + clamped) ∧
    (r.silent = true ↔ lint = none) ∧ r.lint = lint.getD (-900) ∧ r.lp = lp ∧ r.q = gainFactor r.g ∧
    (lint = none → r.lout = -900 ∧ r.underTarget = false) ∧
    (∀ x, lint = some x → r.lout = x + r.g ∧ (r.underTarget = true ↔ r.lout < l.target - l.tolerance)) ∧
    lp + r.g ≤ l.ceiling ∧ r.g ≤ 240 ∧
    (-100 ≤ l.ceiling → lp ≤ 0 → -200 ≤ r.g) ∧
    (∀ x, lint = some x → x ≤ lp → r.lout ≤ l.ceiling))

/-! ### The coder -/

/-- The class of a frame: VOICED unless the level of its energy is below the silence threshold. The rate control of one encoder: the
grant and the new credit, the bounds they keep under the ranges of a profile, when a frame is starved, the starve state with its
crossing, and the bytes of the frame. The drawing of pages: each encoder draws one page from the
head of the pool exactly when its frame reaches past its page list, in ascending order, and stops at an empty pool; no page is lost
or made. The restores with the ended mark: the STARVED encoders in order, each at the last frame it took. Where the frame bytes
stand: each encoder's at its image byte count, through its page list. The header, its 64 bytes at image offsets 0 to 63. No other
byte of rendition memory changes. -/
def Obligations.CoderTakesFrames : Prop :=
  (∀ (silence : Int) (ys : List Int),
     isVoiced silence ys = true ↔ silence ≤ energyLevel ((ys.map (fun y => y.natAbs ^ 2)).sum / ys.length)) ∧
  (∀ (e : Encoder) (v : Bool) (ys : List Int) (n : Nat),
     let demand := if v then e.profile.bpeak else e.profile.bmin
     let t := e.takeFrame v ys n
     e.grant v = min demand (e.profile.bsus + e.credit) ∧
     t.credit = min (e.credit + e.profile.bsus - e.grant v) e.profile.cmax ∧
     (e.starvesFrame v = true ↔ e.grant v < demand) ∧
     (Profile.inRange e.profile = true → e.profile.bmin ≤ e.grant v ∧ e.grant v ≤ e.profile.bpeak ∧
       (v = false → e.grant v = e.profile.bmin ∧ e.starvesFrame v = false) ∧
       (v = true → (e.starvesFrame v = true ↔ e.profile.bsus + e.credit < e.profile.bpeak))) ∧
     (t.starved = true ↔ if e.starved = true then t.credit < e.profile.ts + e.profile.d else t.credit < e.profile.ts) ∧
     e.crossing v n = (if e.starved = false ∧ t.starved = true then some (.starve e.rendition n)
       else if e.starved = true ∧ t.starved = false then some (.restore e.rendition n false) else none) ∧
     t.lastCrossing = (if e.crossing v n = none then e.lastCrossing else some n) ∧
     t.frames = e.frames + 1 ∧ t.starvedFrames = e.starvedFrames + (if e.starvesFrame v then 1 else 0) ∧
     t.byteCount = e.byteCount + 4 + e.grant v ∧ t.pages = e.pages ∧ t.profile = e.profile ∧ t.rendition = e.rendition ∧
     t.crc = crc32Bytes e.crc (e.frameBytes v ys) ∧
     (∃ payload, payload.length = e.grant v ∧ e.frameBytes v ys =
       [0x5A#8, BitVec.ofNat 8 ((if v then 1 else 0) + if e.starvesFrame v then 2 else 0), BitVec.ofNat 8 (e.grant v),
         BitVec.ofNat 8 (e.grant v / 256)] ++ payload)) ∧
  (∀ (v : Bool) (es : List Encoder) (pool : List Nat),
     let need := es.filter (fun e => decide (4096 * e.pages.length ≤ e.byteCount + 4 + e.grant v - 1))
     let d := drawPages v es pool
     (d.2.2 = true ↔ need.length ≤ pool.length) ∧ d.2.1 = pool.drop need.length ∧
     d.1.map (fun e => { e with pages := [] }) = es.map (fun e => { e with pages := [] }) ∧
     (d.1.flatMap (fun e => e.pages) ++ d.2.1).Perm (es.flatMap (fun e => e.pages) ++ pool) ∧
     (d.2.2 = true → ∀ j e, es[j]? = some e → ∃ e', d.1[j]? = some e' ∧ e'.pages = e.pages ++
       (if 4096 * e.pages.length ≤ e.byteCount + 4 + e.grant v - 1
        then (pool.drop ((es.take j).filter
          (fun e => decide (4096 * e.pages.length ≤ e.byteCount + 4 + e.grant v - 1))).length).take 1
        else []))) ∧
  (∀ es : List Encoder,
     endedRestores es = (es.filter (fun e => e.starved)).map (fun e => .restore e.rendition (e.frames - 1) true)) ∧
  (∀ (m : Memory) (v : Bool) (ys : List Int) (es : List Encoder), Memory.wf m = true → (es.flatMap (fun e => e.pages)).Nodup →
     let new := writeFrames m v ys es
     (∀ e ∈ es, stored new e.pages e.byteCount (e.frameBytes v ys)) ∧
     (∀ a, (∀ e ∈ es, ∀ j, j < 4 + e.grant v → imageAddress e.pages (e.byteCount + j) ≠ some a) →
       Memory.read new a = Memory.read m a)) ∧
  (∀ (m : Memory) (catalogue : Nat) (r : Render) (g : GainRecord) (saturated : Nat) (es : List Encoder), Memory.wf m = true →
     (es.flatMap (fun e => e.pages)).Nodup →
     let new := writeHeaders m catalogue r g saturated es
     let bit := fun (b : Bool) (n : Nat) => if b then 2 ^ n else 0
     let signed := fun (x : Int) => le 2 (x % 65536).toNat
     (∀ e ∈ es,
       let header := [0x47#8, 0x5A#8, 0x43#8, 0x48#8] ++ le 8 catalogue ++
         [BitVec.ofNat 8 r.chapter.index, BitVec.ofNat 8 e.rendition] ++
         le 2 (bit g.silent 0 + bit g.gainClamped 1 + bit g.peakLimited 2 + bit g.underTarget 3 + bit e.starved 4 +
           bit (decide (r.params.roomTone = none)) 5) ++ [0#8, 0#8] ++ le 4 r.timeline.length ++ le 4 e.frames ++
         le 4 e.byteCount ++ signed g.lint ++ signed g.lp ++ signed g.g ++ signed g.lout ++ le 4 e.starvedFrames ++
         le 4 saturated ++ le 2 e.profile.bsus ++ le 2 e.profile.bpeak ++ le 4 (e.crc ^^^ 0xFFFFFFFF#32).toNat ++
         List.replicate 10 0#8
       header.length = 64 ∧ stored new e.pages 0 header) ∧
     (∀ a, (∀ e ∈ es, ∀ j, j < 64 → imageAddress e.pages j ≠ some a) → Memory.read new a = Memory.read m a))

/-! ### What every step keeps -/

/-- Every step keeps the ATTN outputs true to the lists and masks, and the port records consistent (R177, R182); among them, that a
transaction in progress at a port whose reset line is asserted is one that sends 0x00 from the assertion on (R190). That it does so
to its end, and that a device reset leaves it so, are the model's inferences (log entries 7 and 11). -/
def Obligations.StepsKeepPorts : Prop :=
  ∀ s t : State, s.AttnLaw → s.PortLaw → step s = .next t → t.AttnLaw ∧ t.PortLaw

/-- Every step keeps both memories in canonical form and the numbers of all five tables rising, so that each number has one record
at most. The forms are the model's representation (log entries 3 and 15). -/
def Obligations.StepsKeepCanonicalForms : Prop :=
  ∀ s t : State, s.MemoryLaw → s.TableLaw → step s = .next t → t.MemoryLaw ∧ t.TableLaw

/-- R42: every step keeps each of the 32,768 groups in exactly one place. -/
def Obligations.StepsKeepGroups : Prop := ∀ s t : State, s.GroupLaw → step s = .next t → t.GroupLaw

/-- R150: every step keeps each of the 1,048,576 pages in exactly one place. -/
def Obligations.StepsKeepPages : Prop := ∀ s t : State, s.PageLaw → step s = .next t → t.PageLaw

/-- R169: every step keeps the keys of every notice list single. -/
def Obligations.StepsKeepNotices : Prop := ∀ s t : State, s.NoticeLaw → step s = .next t → t.NoticeLaw

/-- R41: every step keeps the group map in agreement with the places of the groups, where each group is in one place. -/
def Obligations.StepsKeepGroupMap : Prop := ∀ s t : State, s.GroupLaw → s.MapLaw → step s = .next t → t.MapLaw

/-- R64: every step keeps the reference count of each group the number of segments and room-tone spans that touch it, and with it what
that rests on: each segment and span fits a take of its title that is not RECORDING, and each program in flight is that of a
RECORDING take. -/
def Obligations.StepsKeepReferences : Prop :=
  ∀ s t : State, s.GroupLaw → s.TableLaw → s.ProgramLaw → s.SpanLaw → s.CountLaw → step s = .next t →
    t.ProgramLaw ∧ t.SpanLaw ∧ t.CountLaw

/-- R19, R151, R154: every step keeps the published flags, the render serials and the published sets in agreement, and keeps the image
that a hold names published with the serial of the hold. -/
def Obligations.StepsKeepPublished : Prop :=
  ∀ s t : State, s.TableLaw → s.RenderLaw → s.PublishedLaw → s.HoldLaw → step s = .next t → t.PublishedLaw ∧ t.HoldLaw

/-- R76, R77, R83: every step keeps the FIFOs, the lanes, the chapter states and the count in agreement. -/
def Obligations.StepsKeepRenders : Prop := ∀ s t : State, s.RenderLaw → step s = .next t → t.RenderLaw

/-- State.reset has all the laws. Its straps, cause and lines are the model's choice (log entry 4), and the forms of its memories and
tables are the model's representation (log entries 3 and 15). -/
def Obligations.ResetHasLaws : Prop :=
  State.reset.AttnLaw ∧ State.reset.PortLaw ∧ State.reset.MemoryLaw ∧ State.reset.TableLaw ∧ State.reset.GroupLaw ∧
  State.reset.PageLaw ∧ State.reset.NoticeLaw ∧ State.reset.RenderLaw ∧ State.reset.MapLaw ∧ State.reset.ProgramLaw ∧
  State.reset.SpanLaw ∧ State.reset.CountLaw ∧ State.reset.PublishedLaw ∧ State.reset.HoldLaw
end

