-- ==== Sys2Proof/Laws/State.lean ====
section
/-! SUPPORT. What each named update of State does to each field, one lemma per field; all true by rfl. -/

namespace Sys2Proof.Machine

@[simp] theorem State.setTitle_titles (s : State) (th : Nat) (t : Title) : (s.setTitle th t).titles = Tab.put s.titles th t := rfl
@[simp] theorem State.setTitle_chapters (s : State) (th : Nat) (t : Title) : (s.setTitle th t).chapters = s.chapters := rfl
@[simp] theorem State.setTitle_takeMem (s : State) (th : Nat) (t : Title) : (s.setTitle th t).takeMem = s.takeMem := rfl
@[simp] theorem State.setTitle_queue (s : State) (th : Nat) (t : Title) : (s.setTitle th t).queue = s.queue := rfl
@[simp] theorem State.setTitle_lanes (s : State) (th : Nat) (t : Title) : (s.setTitle th t).lanes = s.lanes := rfl
@[simp] theorem State.setTitle_wheel (s : State) (th : Nat) (t : Title) : (s.setTitle th t).wheel = s.wheel := rfl
@[simp] theorem State.setTitle_rendMem (s : State) (th : Nat) (t : Title) : (s.setTitle th t).rendMem = s.rendMem := rfl
@[simp] theorem State.setTitle_holdTable (s : State) (th : Nat) (t : Title) : (s.setTitle th t).holdTable = s.holdTable := rfl
@[simp] theorem State.setTitle_ports (s : State) (th : Nat) (t : Title) : (s.setTitle th t).ports = s.ports := rfl
@[simp] theorem State.setTitle_cause (s : State) (th : Nat) (t : Title) : (s.setTitle th t).cause = s.cause := rfl
@[simp] theorem State.setTitle_resetHeld (s : State) (th : Nat) (t : Title) : (s.setTitle th t).resetHeld = s.resetHeld := rfl
@[simp] theorem State.setTitle_pending (s : State) (th : Nat) (t : Title) : (s.setTitle th t).pending = s.pending := rfl

@[simp] theorem State.setChapter_titles (s : State) (c : ChapterId) (k : Chapter) : (s.setChapter c k).titles = s.titles := rfl
@[simp] theorem State.setChapter_chapters (s : State) (c : ChapterId) (k : Chapter) : (s.setChapter c k).chapters = Tab.put s.chapters c.key k := rfl
@[simp] theorem State.setChapter_takeMem (s : State) (c : ChapterId) (k : Chapter) : (s.setChapter c k).takeMem = s.takeMem := rfl
@[simp] theorem State.setChapter_queue (s : State) (c : ChapterId) (k : Chapter) : (s.setChapter c k).queue = s.queue := rfl
@[simp] theorem State.setChapter_lanes (s : State) (c : ChapterId) (k : Chapter) : (s.setChapter c k).lanes = s.lanes := rfl
@[simp] theorem State.setChapter_wheel (s : State) (c : ChapterId) (k : Chapter) : (s.setChapter c k).wheel = s.wheel := rfl
@[simp] theorem State.setChapter_rendMem (s : State) (c : ChapterId) (k : Chapter) : (s.setChapter c k).rendMem = s.rendMem := rfl
@[simp] theorem State.setChapter_holdTable (s : State) (c : ChapterId) (k : Chapter) : (s.setChapter c k).holdTable = s.holdTable := rfl
@[simp] theorem State.setChapter_ports (s : State) (c : ChapterId) (k : Chapter) : (s.setChapter c k).ports = s.ports := rfl
@[simp] theorem State.setChapter_cause (s : State) (c : ChapterId) (k : Chapter) : (s.setChapter c k).cause = s.cause := rfl
@[simp] theorem State.setChapter_resetHeld (s : State) (c : ChapterId) (k : Chapter) : (s.setChapter c k).resetHeld = s.resetHeld := rfl
@[simp] theorem State.setChapter_pending (s : State) (c : ChapterId) (k : Chapter) : (s.setChapter c k).pending = s.pending := rfl

@[simp] theorem State.changeChapter_titles (s : State) (c : ChapterId) (f : Chapter → Chapter) : (s.changeChapter c f).titles = s.titles := rfl
@[simp] theorem State.changeChapter_chapters (s : State) (c : ChapterId) (f : Chapter → Chapter) : (s.changeChapter c f).chapters = Tab.change s.chapters c.key f := rfl
@[simp] theorem State.changeChapter_takeMem (s : State) (c : ChapterId) (f : Chapter → Chapter) : (s.changeChapter c f).takeMem = s.takeMem := rfl
@[simp] theorem State.changeChapter_queue (s : State) (c : ChapterId) (f : Chapter → Chapter) : (s.changeChapter c f).queue = s.queue := rfl
@[simp] theorem State.changeChapter_lanes (s : State) (c : ChapterId) (f : Chapter → Chapter) : (s.changeChapter c f).lanes = s.lanes := rfl
@[simp] theorem State.changeChapter_wheel (s : State) (c : ChapterId) (f : Chapter → Chapter) : (s.changeChapter c f).wheel = s.wheel := rfl
@[simp] theorem State.changeChapter_rendMem (s : State) (c : ChapterId) (f : Chapter → Chapter) : (s.changeChapter c f).rendMem = s.rendMem := rfl
@[simp] theorem State.changeChapter_holdTable (s : State) (c : ChapterId) (f : Chapter → Chapter) : (s.changeChapter c f).holdTable = s.holdTable := rfl
@[simp] theorem State.changeChapter_ports (s : State) (c : ChapterId) (f : Chapter → Chapter) : (s.changeChapter c f).ports = s.ports := rfl
@[simp] theorem State.changeChapter_cause (s : State) (c : ChapterId) (f : Chapter → Chapter) : (s.changeChapter c f).cause = s.cause := rfl
@[simp] theorem State.changeChapter_resetHeld (s : State) (c : ChapterId) (f : Chapter → Chapter) : (s.changeChapter c f).resetHeld = s.resetHeld := rfl
@[simp] theorem State.changeChapter_pending (s : State) (c : ChapterId) (f : Chapter → Chapter) : (s.changeChapter c f).pending = s.pending := rfl

@[simp] theorem State.markStale_titles (s : State) (th : Nat) : (s.markStale th).titles = s.titles := rfl
@[simp] theorem State.markStale_takeMem (s : State) (th : Nat) : (s.markStale th).takeMem = s.takeMem := rfl
@[simp] theorem State.markStale_queue (s : State) (th : Nat) : (s.markStale th).queue = s.queue := rfl
@[simp] theorem State.markStale_lanes (s : State) (th : Nat) : (s.markStale th).lanes = s.lanes := rfl
@[simp] theorem State.markStale_wheel (s : State) (th : Nat) : (s.markStale th).wheel = s.wheel := rfl
@[simp] theorem State.markStale_rendMem (s : State) (th : Nat) : (s.markStale th).rendMem = s.rendMem := rfl
@[simp] theorem State.markStale_holdTable (s : State) (th : Nat) : (s.markStale th).holdTable = s.holdTable := rfl
@[simp] theorem State.markStale_ports (s : State) (th : Nat) : (s.markStale th).ports = s.ports := rfl
@[simp] theorem State.markStale_cause (s : State) (th : Nat) : (s.markStale th).cause = s.cause := rfl
@[simp] theorem State.markStale_resetHeld (s : State) (th : Nat) : (s.markStale th).resetHeld = s.resetHeld := rfl
@[simp] theorem State.markStale_pending (s : State) (th : Nat) : (s.markStale th).pending = s.pending := rfl

@[simp] theorem State.setTakeMem_titles (s : State) (m : TakeMemory) : (s.setTakeMem m).titles = s.titles := rfl
@[simp] theorem State.setTakeMem_chapters (s : State) (m : TakeMemory) : (s.setTakeMem m).chapters = s.chapters := rfl
@[simp] theorem State.setTakeMem_takeMem (s : State) (m : TakeMemory) : (s.setTakeMem m).takeMem = m := rfl
@[simp] theorem State.setTakeMem_queue (s : State) (m : TakeMemory) : (s.setTakeMem m).queue = s.queue := rfl
@[simp] theorem State.setTakeMem_lanes (s : State) (m : TakeMemory) : (s.setTakeMem m).lanes = s.lanes := rfl
@[simp] theorem State.setTakeMem_wheel (s : State) (m : TakeMemory) : (s.setTakeMem m).wheel = s.wheel := rfl
@[simp] theorem State.setTakeMem_rendMem (s : State) (m : TakeMemory) : (s.setTakeMem m).rendMem = s.rendMem := rfl
@[simp] theorem State.setTakeMem_holdTable (s : State) (m : TakeMemory) : (s.setTakeMem m).holdTable = s.holdTable := rfl
@[simp] theorem State.setTakeMem_ports (s : State) (m : TakeMemory) : (s.setTakeMem m).ports = s.ports := rfl
@[simp] theorem State.setTakeMem_cause (s : State) (m : TakeMemory) : (s.setTakeMem m).cause = s.cause := rfl
@[simp] theorem State.setTakeMem_resetHeld (s : State) (m : TakeMemory) : (s.setTakeMem m).resetHeld = s.resetHeld := rfl
@[simp] theorem State.setTakeMem_pending (s : State) (m : TakeMemory) : (s.setTakeMem m).pending = s.pending := rfl

@[simp] theorem State.setLane_titles (s : State) (i : Fin 4) (l : Lane) : (s.setLane i l).titles = s.titles := rfl
@[simp] theorem State.setLane_chapters (s : State) (i : Fin 4) (l : Lane) : (s.setLane i l).chapters = s.chapters := rfl
@[simp] theorem State.setLane_takeMem (s : State) (i : Fin 4) (l : Lane) : (s.setLane i l).takeMem = s.takeMem := rfl
@[simp] theorem State.setLane_queue (s : State) (i : Fin 4) (l : Lane) : (s.setLane i l).queue = s.queue := rfl
@[simp] theorem State.setLane_lanes (s : State) (i : Fin 4) (l : Lane) : (s.setLane i l).lanes = s.lanes.set i l := rfl
@[simp] theorem State.setLane_wheel (s : State) (i : Fin 4) (l : Lane) : (s.setLane i l).wheel = s.wheel := rfl
@[simp] theorem State.setLane_rendMem (s : State) (i : Fin 4) (l : Lane) : (s.setLane i l).rendMem = s.rendMem := rfl
@[simp] theorem State.setLane_holdTable (s : State) (i : Fin 4) (l : Lane) : (s.setLane i l).holdTable = s.holdTable := rfl
@[simp] theorem State.setLane_ports (s : State) (i : Fin 4) (l : Lane) : (s.setLane i l).ports = s.ports := rfl
@[simp] theorem State.setLane_cause (s : State) (i : Fin 4) (l : Lane) : (s.setLane i l).cause = s.cause := rfl
@[simp] theorem State.setLane_resetHeld (s : State) (i : Fin 4) (l : Lane) : (s.setLane i l).resetHeld = s.resetHeld := rfl
@[simp] theorem State.setLane_pending (s : State) (i : Fin 4) (l : Lane) : (s.setLane i l).pending = s.pending := rfl

@[simp] theorem State.setRender_titles (s : State) (i : Fin 4) (r : Render) : (s.setRender i r).titles = s.titles := rfl
@[simp] theorem State.setRender_chapters (s : State) (i : Fin 4) (r : Render) : (s.setRender i r).chapters = s.chapters := rfl
@[simp] theorem State.setRender_takeMem (s : State) (i : Fin 4) (r : Render) : (s.setRender i r).takeMem = s.takeMem := rfl
@[simp] theorem State.setRender_queue (s : State) (i : Fin 4) (r : Render) : (s.setRender i r).queue = s.queue := rfl
@[simp] theorem State.setRender_lanes (s : State) (i : Fin 4) (r : Render) : (s.setRender i r).lanes = s.lanes.set i { s.lanes.get i with render := some r } := rfl
@[simp] theorem State.setRender_wheel (s : State) (i : Fin 4) (r : Render) : (s.setRender i r).wheel = s.wheel := rfl
@[simp] theorem State.setRender_rendMem (s : State) (i : Fin 4) (r : Render) : (s.setRender i r).rendMem = s.rendMem := rfl
@[simp] theorem State.setRender_holdTable (s : State) (i : Fin 4) (r : Render) : (s.setRender i r).holdTable = s.holdTable := rfl
@[simp] theorem State.setRender_ports (s : State) (i : Fin 4) (r : Render) : (s.setRender i r).ports = s.ports := rfl
@[simp] theorem State.setRender_cause (s : State) (i : Fin 4) (r : Render) : (s.setRender i r).cause = s.cause := rfl
@[simp] theorem State.setRender_resetHeld (s : State) (i : Fin 4) (r : Render) : (s.setRender i r).resetHeld = s.resetHeld := rfl
@[simp] theorem State.setRender_pending (s : State) (i : Fin 4) (r : Render) : (s.setRender i r).pending = s.pending := rfl

@[simp] theorem State.setHold_titles (s : State) (slot : Nat) (h : Hold) : (s.setHold slot h).titles = s.titles := rfl
@[simp] theorem State.setHold_chapters (s : State) (slot : Nat) (h : Hold) : (s.setHold slot h).chapters = s.chapters := rfl
@[simp] theorem State.setHold_takeMem (s : State) (slot : Nat) (h : Hold) : (s.setHold slot h).takeMem = s.takeMem := rfl
@[simp] theorem State.setHold_queue (s : State) (slot : Nat) (h : Hold) : (s.setHold slot h).queue = s.queue := rfl
@[simp] theorem State.setHold_lanes (s : State) (slot : Nat) (h : Hold) : (s.setHold slot h).lanes = s.lanes := rfl
@[simp] theorem State.setHold_wheel (s : State) (slot : Nat) (h : Hold) : (s.setHold slot h).wheel = s.wheel := rfl
@[simp] theorem State.setHold_rendMem (s : State) (slot : Nat) (h : Hold) : (s.setHold slot h).rendMem = s.rendMem := rfl
@[simp] theorem State.setHold_holdTable (s : State) (slot : Nat) (h : Hold) : (s.setHold slot h).holdTable = { s.holdTable with holds := Tab.put s.holdTable.holds slot h } := rfl
@[simp] theorem State.setHold_ports (s : State) (slot : Nat) (h : Hold) : (s.setHold slot h).ports = s.ports := rfl
@[simp] theorem State.setHold_cause (s : State) (slot : Nat) (h : Hold) : (s.setHold slot h).cause = s.cause := rfl
@[simp] theorem State.setHold_resetHeld (s : State) (slot : Nat) (h : Hold) : (s.setHold slot h).resetHeld = s.resetHeld := rfl
@[simp] theorem State.setHold_pending (s : State) (slot : Nat) (h : Hold) : (s.setHold slot h).pending = s.pending := rfl

@[simp] theorem State.endFetch_titles (s : State) (slot : Nat) : (s.endFetch slot).titles = s.titles := rfl
@[simp] theorem State.endFetch_chapters (s : State) (slot : Nat) : (s.endFetch slot).chapters = s.chapters := rfl
@[simp] theorem State.endFetch_takeMem (s : State) (slot : Nat) : (s.endFetch slot).takeMem = s.takeMem := rfl
@[simp] theorem State.endFetch_queue (s : State) (slot : Nat) : (s.endFetch slot).queue = s.queue := rfl
@[simp] theorem State.endFetch_lanes (s : State) (slot : Nat) : (s.endFetch slot).lanes = s.lanes := rfl
@[simp] theorem State.endFetch_wheel (s : State) (slot : Nat) : (s.endFetch slot).wheel = s.wheel := rfl
@[simp] theorem State.endFetch_rendMem (s : State) (slot : Nat) : (s.endFetch slot).rendMem = s.rendMem := rfl
@[simp] theorem State.endFetch_ports (s : State) (slot : Nat) : (s.endFetch slot).ports = s.ports := rfl
@[simp] theorem State.endFetch_cause (s : State) (slot : Nat) : (s.endFetch slot).cause = s.cause := rfl
@[simp] theorem State.endFetch_resetHeld (s : State) (slot : Nat) : (s.endFetch slot).resetHeld = s.resetHeld := rfl
@[simp] theorem State.endFetch_pending (s : State) (slot : Nat) : (s.endFetch slot).pending = s.pending := rfl

@[simp] theorem State.freeTitle_titles (s : State) (th : Nat) : (s.freeTitle th).titles = Tab.drop s.titles th := rfl
@[simp] theorem State.freeTitle_chapters (s : State) (th : Nat) : (s.freeTitle th).chapters = s.chapters := rfl
@[simp] theorem State.freeTitle_takeMem (s : State) (th : Nat) : (s.freeTitle th).takeMem = s.takeMem := rfl
@[simp] theorem State.freeTitle_queue (s : State) (th : Nat) : (s.freeTitle th).queue = s.queue := rfl
@[simp] theorem State.freeTitle_lanes (s : State) (th : Nat) : (s.freeTitle th).lanes = s.lanes := rfl
@[simp] theorem State.freeTitle_wheel (s : State) (th : Nat) : (s.freeTitle th).wheel = s.wheel := rfl
@[simp] theorem State.freeTitle_rendMem (s : State) (th : Nat) : (s.freeTitle th).rendMem = s.rendMem := rfl
@[simp] theorem State.freeTitle_holdTable (s : State) (th : Nat) : (s.freeTitle th).holdTable = s.holdTable := rfl
@[simp] theorem State.freeTitle_ports (s : State) (th : Nat) : (s.freeTitle th).ports = s.ports := rfl
@[simp] theorem State.freeTitle_cause (s : State) (th : Nat) : (s.freeTitle th).cause = s.cause := rfl
@[simp] theorem State.freeTitle_resetHeld (s : State) (th : Nat) : (s.freeTitle th).resetHeld = s.resetHeld := rfl
@[simp] theorem State.freeTitle_pending (s : State) (th : Nat) : (s.freeTitle th).pending = s.pending := rfl

@[simp] theorem State.advanceWheel_titles (s : State) : (s.advanceWheel).titles = s.titles := rfl
@[simp] theorem State.advanceWheel_chapters (s : State) : (s.advanceWheel).chapters = s.chapters := rfl
@[simp] theorem State.advanceWheel_takeMem (s : State) : (s.advanceWheel).takeMem = s.takeMem := rfl
@[simp] theorem State.advanceWheel_queue (s : State) : (s.advanceWheel).queue = s.queue := rfl
@[simp] theorem State.advanceWheel_lanes (s : State) : (s.advanceWheel).lanes = s.lanes := rfl
@[simp] theorem State.advanceWheel_wheel (s : State) : (s.advanceWheel).wheel = s.wheel.advance := rfl
@[simp] theorem State.advanceWheel_rendMem (s : State) : (s.advanceWheel).rendMem = s.rendMem := rfl
@[simp] theorem State.advanceWheel_holdTable (s : State) : (s.advanceWheel).holdTable = s.holdTable := rfl
@[simp] theorem State.advanceWheel_ports (s : State) : (s.advanceWheel).ports = s.ports := rfl
@[simp] theorem State.advanceWheel_cause (s : State) : (s.advanceWheel).cause = s.cause := rfl
@[simp] theorem State.advanceWheel_resetHeld (s : State) : (s.advanceWheel).resetHeld = s.resetHeld := rfl
@[simp] theorem State.advanceWheel_pending (s : State) : (s.advanceWheel).pending = s.pending := rfl

@[simp] theorem State.enqueue_titles (s : State) (c : ChapterId) (k : Chapter) (p : Priority) : (s.enqueue c k p).titles = s.titles := rfl
@[simp] theorem State.enqueue_takeMem (s : State) (c : ChapterId) (k : Chapter) (p : Priority) : (s.enqueue c k p).takeMem = s.takeMem := rfl
@[simp] theorem State.enqueue_lanes (s : State) (c : ChapterId) (k : Chapter) (p : Priority) : (s.enqueue c k p).lanes = s.lanes := rfl
@[simp] theorem State.enqueue_wheel (s : State) (c : ChapterId) (k : Chapter) (p : Priority) : (s.enqueue c k p).wheel = s.wheel := rfl
@[simp] theorem State.enqueue_rendMem (s : State) (c : ChapterId) (k : Chapter) (p : Priority) : (s.enqueue c k p).rendMem = s.rendMem := rfl
@[simp] theorem State.enqueue_holdTable (s : State) (c : ChapterId) (k : Chapter) (p : Priority) : (s.enqueue c k p).holdTable = s.holdTable := rfl
@[simp] theorem State.enqueue_ports (s : State) (c : ChapterId) (k : Chapter) (p : Priority) : (s.enqueue c k p).ports = s.ports := rfl
@[simp] theorem State.enqueue_cause (s : State) (c : ChapterId) (k : Chapter) (p : Priority) : (s.enqueue c k p).cause = s.cause := rfl
@[simp] theorem State.enqueue_resetHeld (s : State) (c : ChapterId) (k : Chapter) (p : Priority) : (s.enqueue c k p).resetHeld = s.resetHeld := rfl
@[simp] theorem State.enqueue_pending (s : State) (c : ChapterId) (k : Chapter) (p : Priority) : (s.enqueue c k p).pending = s.pending := rfl

@[simp] theorem State.moveTone_chapters (s : State) (th : Nat) (t : Title) (r : Option RoomSpan) : (s.moveTone th t r).chapters = s.chapters := rfl
@[simp] theorem State.moveTone_queue (s : State) (th : Nat) (t : Title) (r : Option RoomSpan) : (s.moveTone th t r).queue = s.queue := rfl
@[simp] theorem State.moveTone_lanes (s : State) (th : Nat) (t : Title) (r : Option RoomSpan) : (s.moveTone th t r).lanes = s.lanes := rfl
@[simp] theorem State.moveTone_wheel (s : State) (th : Nat) (t : Title) (r : Option RoomSpan) : (s.moveTone th t r).wheel = s.wheel := rfl
@[simp] theorem State.moveTone_rendMem (s : State) (th : Nat) (t : Title) (r : Option RoomSpan) : (s.moveTone th t r).rendMem = s.rendMem := rfl
@[simp] theorem State.moveTone_holdTable (s : State) (th : Nat) (t : Title) (r : Option RoomSpan) : (s.moveTone th t r).holdTable = s.holdTable := rfl
@[simp] theorem State.moveTone_ports (s : State) (th : Nat) (t : Title) (r : Option RoomSpan) : (s.moveTone th t r).ports = s.ports := rfl
@[simp] theorem State.moveTone_cause (s : State) (th : Nat) (t : Title) (r : Option RoomSpan) : (s.moveTone th t r).cause = s.cause := rfl
@[simp] theorem State.moveTone_resetHeld (s : State) (th : Nat) (t : Title) (r : Option RoomSpan) : (s.moveTone th t r).resetHeld = s.resetHeld := rfl
@[simp] theorem State.moveTone_pending (s : State) (th : Nat) (t : Title) (r : Option RoomSpan) : (s.moveTone th t r).pending = s.pending := rfl

@[simp] theorem State.setPort_titles (s : State) (p : Port) (r : PortRecord) : (s.setPort p r).titles = s.titles := rfl
@[simp] theorem State.setPort_chapters (s : State) (p : Port) (r : PortRecord) : (s.setPort p r).chapters = s.chapters := rfl
@[simp] theorem State.setPort_takeMem (s : State) (p : Port) (r : PortRecord) : (s.setPort p r).takeMem = s.takeMem := rfl
@[simp] theorem State.setPort_queue (s : State) (p : Port) (r : PortRecord) : (s.setPort p r).queue = s.queue := rfl
@[simp] theorem State.setPort_lanes (s : State) (p : Port) (r : PortRecord) : (s.setPort p r).lanes = s.lanes := rfl
@[simp] theorem State.setPort_wheel (s : State) (p : Port) (r : PortRecord) : (s.setPort p r).wheel = s.wheel := rfl
@[simp] theorem State.setPort_rendMem (s : State) (p : Port) (r : PortRecord) : (s.setPort p r).rendMem = s.rendMem := rfl
@[simp] theorem State.setPort_holdTable (s : State) (p : Port) (r : PortRecord) : (s.setPort p r).holdTable = s.holdTable := rfl
@[simp] theorem State.setPort_ports (s : State) (p : Port) (r : PortRecord) : (s.setPort p r).ports = s.ports.set p r := rfl
@[simp] theorem State.setPort_cause (s : State) (p : Port) (r : PortRecord) : (s.setPort p r).cause = s.cause := rfl
@[simp] theorem State.setPort_resetHeld (s : State) (p : Port) (r : PortRecord) : (s.setPort p r).resetHeld = s.resetHeld := rfl
@[simp] theorem State.setPort_pending (s : State) (p : Port) (r : PortRecord) : (s.setPort p r).pending = s.pending := rfl

@[simp] theorem State.changePort_titles (s : State) (p : Port) (f : PortRecord → PortRecord) : (s.changePort p f).titles = s.titles := rfl
@[simp] theorem State.changePort_chapters (s : State) (p : Port) (f : PortRecord → PortRecord) : (s.changePort p f).chapters = s.chapters := rfl
@[simp] theorem State.changePort_takeMem (s : State) (p : Port) (f : PortRecord → PortRecord) : (s.changePort p f).takeMem = s.takeMem := rfl
@[simp] theorem State.changePort_queue (s : State) (p : Port) (f : PortRecord → PortRecord) : (s.changePort p f).queue = s.queue := rfl
@[simp] theorem State.changePort_lanes (s : State) (p : Port) (f : PortRecord → PortRecord) : (s.changePort p f).lanes = s.lanes := rfl
@[simp] theorem State.changePort_wheel (s : State) (p : Port) (f : PortRecord → PortRecord) : (s.changePort p f).wheel = s.wheel := rfl
@[simp] theorem State.changePort_rendMem (s : State) (p : Port) (f : PortRecord → PortRecord) : (s.changePort p f).rendMem = s.rendMem := rfl
@[simp] theorem State.changePort_holdTable (s : State) (p : Port) (f : PortRecord → PortRecord) : (s.changePort p f).holdTable = s.holdTable := rfl
@[simp] theorem State.changePort_ports (s : State) (p : Port) (f : PortRecord → PortRecord) : (s.changePort p f).ports = s.ports.set p (f (s.port p)) := rfl
@[simp] theorem State.changePort_cause (s : State) (p : Port) (f : PortRecord → PortRecord) : (s.changePort p f).cause = s.cause := rfl
@[simp] theorem State.changePort_resetHeld (s : State) (p : Port) (f : PortRecord → PortRecord) : (s.changePort p f).resetHeld = s.resetHeld := rfl
@[simp] theorem State.changePort_pending (s : State) (p : Port) (f : PortRecord → PortRecord) : (s.changePort p f).pending = s.pending := rfl

@[simp] theorem State.setSequence_titles (s : State) (p : Port) (d : DiscardSeq) : (s.setSequence p d).titles = s.titles := rfl
@[simp] theorem State.setSequence_chapters (s : State) (p : Port) (d : DiscardSeq) : (s.setSequence p d).chapters = s.chapters := rfl
@[simp] theorem State.setSequence_takeMem (s : State) (p : Port) (d : DiscardSeq) : (s.setSequence p d).takeMem = s.takeMem := rfl
@[simp] theorem State.setSequence_queue (s : State) (p : Port) (d : DiscardSeq) : (s.setSequence p d).queue = s.queue := rfl
@[simp] theorem State.setSequence_lanes (s : State) (p : Port) (d : DiscardSeq) : (s.setSequence p d).lanes = s.lanes := rfl
@[simp] theorem State.setSequence_wheel (s : State) (p : Port) (d : DiscardSeq) : (s.setSequence p d).wheel = s.wheel := rfl
@[simp] theorem State.setSequence_rendMem (s : State) (p : Port) (d : DiscardSeq) : (s.setSequence p d).rendMem = s.rendMem := rfl
@[simp] theorem State.setSequence_holdTable (s : State) (p : Port) (d : DiscardSeq) : (s.setSequence p d).holdTable = s.holdTable := rfl
@[simp] theorem State.setSequence_ports (s : State) (p : Port) (d : DiscardSeq) : (s.setSequence p d).ports = s.ports.set p { s.port p with sequence := d } := rfl
@[simp] theorem State.setSequence_cause (s : State) (p : Port) (d : DiscardSeq) : (s.setSequence p d).cause = s.cause := rfl
@[simp] theorem State.setSequence_resetHeld (s : State) (p : Port) (d : DiscardSeq) : (s.setSequence p d).resetHeld = s.resetHeld := rfl
@[simp] theorem State.setSequence_pending (s : State) (p : Port) (d : DiscardSeq) : (s.setSequence p d).pending = s.pending := rfl

@[simp] theorem State.closeSpan_titles (s : State) (p : Port) (n : Nat) : (s.closeSpan p n).titles = s.titles := rfl
@[simp] theorem State.closeSpan_chapters (s : State) (p : Port) (n : Nat) : (s.closeSpan p n).chapters = s.chapters := rfl
@[simp] theorem State.closeSpan_takeMem (s : State) (p : Port) (n : Nat) : (s.closeSpan p n).takeMem = s.takeMem := rfl
@[simp] theorem State.closeSpan_queue (s : State) (p : Port) (n : Nat) : (s.closeSpan p n).queue = s.queue := rfl
@[simp] theorem State.closeSpan_lanes (s : State) (p : Port) (n : Nat) : (s.closeSpan p n).lanes = s.lanes := rfl
@[simp] theorem State.closeSpan_wheel (s : State) (p : Port) (n : Nat) : (s.closeSpan p n).wheel = s.wheel := rfl
@[simp] theorem State.closeSpan_rendMem (s : State) (p : Port) (n : Nat) : (s.closeSpan p n).rendMem = s.rendMem := rfl
@[simp] theorem State.closeSpan_holdTable (s : State) (p : Port) (n : Nat) : (s.closeSpan p n).holdTable = s.holdTable := rfl
@[simp] theorem State.closeSpan_cause (s : State) (p : Port) (n : Nat) : (s.closeSpan p n).cause = s.cause := rfl
@[simp] theorem State.closeSpan_resetHeld (s : State) (p : Port) (n : Nat) : (s.closeSpan p n).resetHeld = s.resetHeld := rfl
@[simp] theorem State.closeSpan_pending (s : State) (p : Port) (n : Nat) : (s.closeSpan p n).pending = s.pending := rfl

@[simp] theorem State.collected_titles (s : State) (p : Port) : (s.collected p).titles = s.titles := rfl
@[simp] theorem State.collected_chapters (s : State) (p : Port) : (s.collected p).chapters = s.chapters := rfl
@[simp] theorem State.collected_takeMem (s : State) (p : Port) : (s.collected p).takeMem = s.takeMem := rfl
@[simp] theorem State.collected_queue (s : State) (p : Port) : (s.collected p).queue = s.queue := rfl
@[simp] theorem State.collected_lanes (s : State) (p : Port) : (s.collected p).lanes = s.lanes := rfl
@[simp] theorem State.collected_wheel (s : State) (p : Port) : (s.collected p).wheel = s.wheel := rfl
@[simp] theorem State.collected_rendMem (s : State) (p : Port) : (s.collected p).rendMem = s.rendMem := rfl
@[simp] theorem State.collected_holdTable (s : State) (p : Port) : (s.collected p).holdTable = s.holdTable := rfl
@[simp] theorem State.collected_cause (s : State) (p : Port) : (s.collected p).cause = s.cause := rfl
@[simp] theorem State.collected_resetHeld (s : State) (p : Port) : (s.collected p).resetHeld = s.resetHeld := rfl
@[simp] theorem State.collected_pending (s : State) (p : Port) : (s.collected p).pending = s.pending := rfl

@[simp] theorem State.answer_titles (s : State) (p : Port) (tag : Byte) (b : Bool) (r : Result) : (s.answer p tag b r).titles = s.titles := rfl
@[simp] theorem State.answer_chapters (s : State) (p : Port) (tag : Byte) (b : Bool) (r : Result) : (s.answer p tag b r).chapters = s.chapters := rfl
@[simp] theorem State.answer_takeMem (s : State) (p : Port) (tag : Byte) (b : Bool) (r : Result) : (s.answer p tag b r).takeMem = s.takeMem := rfl
@[simp] theorem State.answer_queue (s : State) (p : Port) (tag : Byte) (b : Bool) (r : Result) : (s.answer p tag b r).queue = s.queue := rfl
@[simp] theorem State.answer_lanes (s : State) (p : Port) (tag : Byte) (b : Bool) (r : Result) : (s.answer p tag b r).lanes = s.lanes := rfl
@[simp] theorem State.answer_wheel (s : State) (p : Port) (tag : Byte) (b : Bool) (r : Result) : (s.answer p tag b r).wheel = s.wheel := rfl
@[simp] theorem State.answer_rendMem (s : State) (p : Port) (tag : Byte) (b : Bool) (r : Result) : (s.answer p tag b r).rendMem = s.rendMem := rfl
@[simp] theorem State.answer_holdTable (s : State) (p : Port) (tag : Byte) (b : Bool) (r : Result) : (s.answer p tag b r).holdTable = s.holdTable := rfl
@[simp] theorem State.answer_cause (s : State) (p : Port) (tag : Byte) (b : Bool) (r : Result) : (s.answer p tag b r).cause = s.cause := rfl
@[simp] theorem State.answer_resetHeld (s : State) (p : Port) (tag : Byte) (b : Bool) (r : Result) : (s.answer p tag b r).resetHeld = s.resetHeld := rfl
@[simp] theorem State.answer_pending (s : State) (p : Port) (tag : Byte) (b : Bool) (r : Result) : (s.answer p tag b r).pending = s.pending := rfl

@[simp] theorem State.execute_titles (s : State) (p : Port) (tag : Byte) (b : Bool) (w : Work) : (s.execute p tag b w).titles = s.titles := rfl
@[simp] theorem State.execute_chapters (s : State) (p : Port) (tag : Byte) (b : Bool) (w : Work) : (s.execute p tag b w).chapters = s.chapters := rfl
@[simp] theorem State.execute_takeMem (s : State) (p : Port) (tag : Byte) (b : Bool) (w : Work) : (s.execute p tag b w).takeMem = s.takeMem := rfl
@[simp] theorem State.execute_queue (s : State) (p : Port) (tag : Byte) (b : Bool) (w : Work) : (s.execute p tag b w).queue = s.queue := rfl
@[simp] theorem State.execute_lanes (s : State) (p : Port) (tag : Byte) (b : Bool) (w : Work) : (s.execute p tag b w).lanes = s.lanes := rfl
@[simp] theorem State.execute_wheel (s : State) (p : Port) (tag : Byte) (b : Bool) (w : Work) : (s.execute p tag b w).wheel = s.wheel := rfl
@[simp] theorem State.execute_rendMem (s : State) (p : Port) (tag : Byte) (b : Bool) (w : Work) : (s.execute p tag b w).rendMem = s.rendMem := rfl
@[simp] theorem State.execute_holdTable (s : State) (p : Port) (tag : Byte) (b : Bool) (w : Work) : (s.execute p tag b w).holdTable = s.holdTable := rfl
@[simp] theorem State.execute_cause (s : State) (p : Port) (tag : Byte) (b : Bool) (w : Work) : (s.execute p tag b w).cause = s.cause := rfl
@[simp] theorem State.execute_resetHeld (s : State) (p : Port) (tag : Byte) (b : Bool) (w : Work) : (s.execute p tag b w).resetHeld = s.resetHeld := rfl
@[simp] theorem State.execute_pending (s : State) (p : Port) (tag : Byte) (b : Bool) (w : Work) : (s.execute p tag b w).pending = s.pending := rfl

@[simp] theorem State.notify_titles (s : State) (f : NoticeLists → NoticeLists) : (s.notify f).titles = s.titles := rfl
@[simp] theorem State.notify_chapters (s : State) (f : NoticeLists → NoticeLists) : (s.notify f).chapters = s.chapters := rfl
@[simp] theorem State.notify_takeMem (s : State) (f : NoticeLists → NoticeLists) : (s.notify f).takeMem = s.takeMem := rfl
@[simp] theorem State.notify_queue (s : State) (f : NoticeLists → NoticeLists) : (s.notify f).queue = s.queue := rfl
@[simp] theorem State.notify_lanes (s : State) (f : NoticeLists → NoticeLists) : (s.notify f).lanes = s.lanes := rfl
@[simp] theorem State.notify_wheel (s : State) (f : NoticeLists → NoticeLists) : (s.notify f).wheel = s.wheel := rfl
@[simp] theorem State.notify_rendMem (s : State) (f : NoticeLists → NoticeLists) : (s.notify f).rendMem = s.rendMem := rfl
@[simp] theorem State.notify_holdTable (s : State) (f : NoticeLists → NoticeLists) : (s.notify f).holdTable = s.holdTable := rfl
@[simp] theorem State.notify_ports (s : State) (f : NoticeLists → NoticeLists) : (s.notify f).ports = s.ports.notify f := rfl
@[simp] theorem State.notify_cause (s : State) (f : NoticeLists → NoticeLists) : (s.notify f).cause = s.cause := rfl
@[simp] theorem State.notify_resetHeld (s : State) (f : NoticeLists → NoticeLists) : (s.notify f).resetHeld = s.resetHeld := rfl
@[simp] theorem State.notify_pending (s : State) (f : NoticeLists → NoticeLists) : (s.notify f).pending = s.pending := rfl

@[simp] theorem State.driveAttn_titles (s : State) : (s.driveAttn).titles = s.titles := rfl
@[simp] theorem State.driveAttn_chapters (s : State) : (s.driveAttn).chapters = s.chapters := rfl
@[simp] theorem State.driveAttn_takeMem (s : State) : (s.driveAttn).takeMem = s.takeMem := rfl
@[simp] theorem State.driveAttn_queue (s : State) : (s.driveAttn).queue = s.queue := rfl
@[simp] theorem State.driveAttn_lanes (s : State) : (s.driveAttn).lanes = s.lanes := rfl
@[simp] theorem State.driveAttn_wheel (s : State) : (s.driveAttn).wheel = s.wheel := rfl
@[simp] theorem State.driveAttn_rendMem (s : State) : (s.driveAttn).rendMem = s.rendMem := rfl
@[simp] theorem State.driveAttn_holdTable (s : State) : (s.driveAttn).holdTable = s.holdTable := rfl
@[simp] theorem State.driveAttn_cause (s : State) : (s.driveAttn).cause = s.cause := rfl
@[simp] theorem State.driveAttn_resetHeld (s : State) : (s.driveAttn).resetHeld = s.resetHeld := rfl
@[simp] theorem State.driveAttn_pending (s : State) : (s.driveAttn).pending = s.pending := rfl

@[simp] theorem State.dropTake_titles (s : State) (id : Nat) : (s.dropTake id).titles = s.titles := rfl
@[simp] theorem State.dropTake_chapters (s : State) (id : Nat) : (s.dropTake id).chapters = s.chapters := rfl
@[simp] theorem State.dropTake_takeMem (s : State) (id : Nat) : (s.dropTake id).takeMem = { s.takeMem with takes := Tab.drop s.takeMem.takes id } := rfl
@[simp] theorem State.dropTake_queue (s : State) (id : Nat) : (s.dropTake id).queue = s.queue := rfl
@[simp] theorem State.dropTake_lanes (s : State) (id : Nat) : (s.dropTake id).lanes = s.lanes := rfl
@[simp] theorem State.dropTake_wheel (s : State) (id : Nat) : (s.dropTake id).wheel = s.wheel := rfl
@[simp] theorem State.dropTake_rendMem (s : State) (id : Nat) : (s.dropTake id).rendMem = s.rendMem := rfl
@[simp] theorem State.dropTake_holdTable (s : State) (id : Nat) : (s.dropTake id).holdTable = s.holdTable := rfl
@[simp] theorem State.dropTake_ports (s : State) (id : Nat) : (s.dropTake id).ports = s.ports.dropMarks id := rfl
@[simp] theorem State.dropTake_cause (s : State) (id : Nat) : (s.dropTake id).cause = s.cause := rfl
@[simp] theorem State.dropTake_resetHeld (s : State) (id : Nat) : (s.dropTake id).resetHeld = s.resetHeld := rfl
@[simp] theorem State.dropTake_pending (s : State) (id : Nat) : (s.dropTake id).pending = s.pending := rfl

end Sys2Proof.Machine
end

