-- ==== Sys2Proof/Laws/Containers.lean ====
section
/-! SUPPORT. Reading back from the containers: the three ports, the four lanes or slots, and the tables. -/

namespace Sys2Proof.Machine

/-! ### Ports -/

@[simp] theorem Ports.get_set_same (q : Ports) (p : Port) (r : PortRecord) : (q.set p r).get p = r := by cases p <;> rfl

theorem Ports.get_set_other (q : Ports) {p p' : Port} (r : PortRecord) (h : p' ≠ p) : (q.set p r).get p' = q.get p' := by
  cases p <;> cases p' <;> first | rfl | exact absurd rfl h

@[simp] theorem Ports.set_set (q : Ports) (p : Port) (r r' : PortRecord) : (q.set p r).set p r' = q.set p r' := by
  cases p <;> rfl

@[simp] theorem Ports.set_get (q : Ports) (p : Port) : q.set p (q.get p) = q := by cases p <;> rfl

@[simp] theorem Ports.get_map (q : Ports) (f : PortRecord → PortRecord) (p : Port) : (q.map f).get p = f (q.get p) := by
  cases p <;> rfl

theorem Ports.map_set (q : Ports) (f : PortRecord → PortRecord) (p : Port) (r : PortRecord) :
    (q.set p r).map f = (q.map f).set p (f r) := by cases p <;> rfl

@[simp] theorem Ports.map_map (q : Ports) (f g : PortRecord → PortRecord) : (q.map f).map g = q.map (fun r => g (f r)) := rfl

@[simp] theorem Ports.get_notify (q : Ports) (f : NoticeLists → NoticeLists) (p : Port) :
    (q.notify f).get p = { q.get p with lists := f (q.get p).lists } := by cases p <;> rfl

theorem Ports.ext {q q' : Ports} (h : ∀ p, q.get p = q'.get p) : q = q' := by
  cases q; cases q'
  have ha := h .a; have hb := h .b; have hc := h .c
  simp only [Ports.get] at ha hb hc
  simp [ha, hb, hc]

@[simp] theorem State.port_setPort_same (s : State) (p : Port) (r : PortRecord) : (s.setPort p r).port p = r := by
  simp [State.port]

theorem State.port_setPort_other (s : State) {p p' : Port} (r : PortRecord) (h : p' ≠ p) :
    (s.setPort p r).port p' = s.port p' := by simp [State.port, Ports.get_set_other _ _ h]

@[simp] theorem State.port_changePort_same (s : State) (p : Port) (f : PortRecord → PortRecord) :
    (s.changePort p f).port p = f (s.port p) := by simp [State.changePort]

theorem State.port_changePort_other (s : State) {p p' : Port} (f : PortRecord → PortRecord) (h : p' ≠ p) :
    (s.changePort p f).port p' = s.port p' := State.port_setPort_other _ _ h

@[simp] theorem State.port_notify (s : State) (f : NoticeLists → NoticeLists) (p : Port) :
    (s.notify f).port p = { s.port p with lists := f (s.port p).lists } := by simp [State.port]

/-- What the end of every meaning makes of a port: its ATTN output, and nothing else. -/
@[simp] theorem State.port_driveAttn (s : State) (p : Port) :
    s.driveAttn.port p = { s.port p with attn := s.resetHeld.isNone && (s.port p).lists.selected (s.port p).mask } := by
  cases p <;> rfl

/-! ### Four -/

@[simp] theorem Four.get_set_same {α : Type} (f : Four α) (i : Fin 4) (x : α) : (f.set i x).get i = x := by
  match i with
  | 0 => rfl
  | 1 => rfl
  | 2 => rfl
  | 3 => rfl

theorem Four.get_set_other {α : Type} (f : Four α) {i j : Fin 4} (x : α) (h : j ≠ i) : (f.set i x).get j = f.get j := by
  match i, j with
  | 0, 0 | 1, 1 | 2, 2 | 3, 3 => exact absurd rfl h
  | 0, 1 | 0, 2 | 0, 3 | 1, 0 | 1, 2 | 1, 3 | 2, 0 | 2, 1 | 2, 3 | 3, 0 | 3, 1 | 3, 2 => rfl

@[simp] theorem Four.set_set {α : Type} (f : Four α) (i : Fin 4) (x y : α) : (f.set i x).set i y = f.set i y := by
  match i with
  | 0 => rfl
  | 1 => rfl
  | 2 => rfl
  | 3 => rfl

@[simp] theorem Four.set_get {α : Type} (f : Four α) (i : Fin 4) : f.set i (f.get i) = f := by
  match i with
  | 0 => rfl
  | 1 => rfl
  | 2 => rfl
  | 3 => rfl

/-! ### Tables -/

/-- Every number of the table is above `k`. -/
def Tab.above {α : Type} (k : Nat) (t : Tab α) : Prop := ∀ e ∈ t, k < e.1

theorem Tab.wf_cons {α : Type} {k : Nat} {v : α} {t : Tab α} (h : Tab.wf ((k, v) :: t) = true) :
    Tab.wf t = true ∧ Tab.above k t := by
  induction t generalizing k v with
  | nil => exact ⟨rfl, fun e he => by cases he⟩
  | cons e t ih =>
    obtain ⟨j, w⟩ := e
    simp only [Tab.wf, Bool.and_eq_true, decide_eq_true_eq] at h
    refine ⟨h.2, fun e he => ?_⟩
    rcases List.mem_cons.1 he with rfl | he
    · exact h.1
    · exact lt_trans h.1 ((ih h.2).2 e he)

theorem Tab.wf_of_above {α : Type} {k : Nat} {v : α} {t : Tab α} (h : Tab.wf t = true) (ha : Tab.above k t) :
    Tab.wf ((k, v) :: t) = true := by
  cases t with
  | nil => rfl
  | cons e t =>
    obtain ⟨j, w⟩ := e
    simp only [Tab.wf, Bool.and_eq_true, decide_eq_true_eq]
    exact ⟨ha (j, w) (List.mem_cons_self ..), h⟩

/-- No number stands twice in a table. -/
theorem Tab.keys_nodup {α : Type} {t : Tab α} (h : Tab.wf t = true) : (t.map (fun e => e.1)).Nodup := by
  induction t with
  | nil => exact List.nodup_nil
  | cons e t ih =>
    obtain ⟨h1, h2⟩ := Tab.wf_cons h
    rw [List.map_cons, List.nodup_cons]
    refine ⟨fun hm => ?_, ih h1⟩
    obtain ⟨x, hx, he⟩ := List.mem_map.1 hm
    exact absurd (h2 x hx) (by rw [he]; exact lt_irrefl _)

theorem Tab.above_put {α : Type} {j k : Nat} {v : α} {t : Tab α} (h : Tab.above j t) (hk : j < k) :
    Tab.above j (Tab.put t k v) := by
  induction t with
  | nil =>
    intro e he
    simp only [Tab.put, List.mem_singleton] at he
    exact he ▸ hk
  | cons e t ih =>
    obtain ⟨i, w⟩ := e
    have ht : Tab.above j t := fun e he => h e (List.mem_cons_of_mem _ he)
    have hi : j < i := h (i, w) (List.mem_cons_self ..)
    unfold Tab.put
    split
    · intro e he
      rcases List.mem_cons.1 he with rfl | he
      · exact hk
      · exact h e he
    · split
      · intro e he
        rcases List.mem_cons.1 he with rfl | he
        · exact hk
        · exact ht e he
      · intro e he
        rcases List.mem_cons.1 he with rfl | he
        · exact hi
        · exact ih ht e he

/-- Storing a record keeps the canonical form. -/
theorem Tab.wf_put {α : Type} {t : Tab α} (k : Nat) (v : α) (h : Tab.wf t = true) : Tab.wf (Tab.put t k v) = true := by
  induction t with
  | nil => rfl
  | cons e t ih =>
    obtain ⟨i, w⟩ := e
    obtain ⟨ht, ha⟩ := Tab.wf_cons h
    unfold Tab.put
    split
    · simp only [Tab.wf, Bool.and_eq_true, decide_eq_true_eq]
      exact ⟨‹_›, h⟩
    · split
      · next hik => exact Tab.wf_of_above ht (hik ▸ ha)
      · next h1 h2 => exact Tab.wf_of_above (ih ht) (Tab.above_put ha (by omega))

/-- Keeping some of the records keeps the canonical form. -/
theorem Tab.wf_filter {α : Type} {t : Tab α} (f : Nat × α → Bool) (h : Tab.wf t = true) : Tab.wf (t.filter f) = true := by
  induction t with
  | nil => rfl
  | cons e t ih =>
    obtain ⟨i, w⟩ := e
    obtain ⟨ht, ha⟩ := Tab.wf_cons h
    rw [List.filter_cons]
    split
    · exact Tab.wf_of_above (ih ht) (fun e he => ha e (List.mem_filter.1 he).1)
    · exact ih ht

/-- Removing a record keeps the canonical form. -/
theorem Tab.wf_drop {α : Type} {t : Tab α} (k : Nat) (h : Tab.wf t = true) : Tab.wf (Tab.drop t k) = true :=
  Tab.wf_filter _ h

/-- Changing one record keeps the canonical form. -/
theorem Tab.wf_change {α : Type} {t : Tab α} (k : Nat) (f : α → α) (h : Tab.wf t = true) :
    Tab.wf (Tab.change t k f) = true := by
  unfold Tab.change
  split
  · exact h
  · exact Tab.wf_put _ _ h

/-- Changing the records and none of the numbers keeps the canonical form. -/
theorem Tab.wf_map {α : Type} {t : Tab α} (f : Nat × α → Nat × α) (hf : ∀ e, (f e).1 = e.1) (h : Tab.wf t = true) :
    Tab.wf (t.map f) = true := by
  induction t with
  | nil => rfl
  | cons e t ih =>
    obtain ⟨i, w⟩ := e
    obtain ⟨ht, ha⟩ := Tab.wf_cons h
    rw [List.map_cons, show f (i, w) = (i, (f (i, w)).2) from Prod.ext (hf _) rfl]
    refine Tab.wf_of_above (ih ht) (fun e he => ?_)
    obtain ⟨e', he', rfl⟩ := List.mem_map.1 he
    rw [hf]
    exact ha e' he'

/-- A record that was just stored is found. -/
@[simp] theorem Tab.look_put_same {α : Type} (t : Tab α) (k : Nat) (v : α) : Tab.look (Tab.put t k v) k = some v := by
  induction t with
  | nil => simp [Tab.put, Tab.look]
  | cons e t ih =>
    obtain ⟨i, w⟩ := e
    unfold Tab.put
    split
    · simp [Tab.look]
    · split
      · simp [Tab.look]
      · next h1 h2 => simp [Tab.look, h2, ih]

/-- Storing one record leaves the others. -/
theorem Tab.look_put_other {α : Type} (t : Tab α) {j k : Nat} (v : α) (h : j ≠ k) :
    Tab.look (Tab.put t k v) j = Tab.look t j := by
  induction t with
  | nil => simp [Tab.put, Tab.look, Ne.symm h]
  | cons e t ih =>
    obtain ⟨i, w⟩ := e
    unfold Tab.put
    split
    · simp [Tab.look, Ne.symm h]
    · split
      · next h1 h2 => subst h2; simp [Tab.look, Ne.symm h]
      · simp [Tab.look, ih]

/-- A record that was removed is not found. -/
@[simp] theorem Tab.look_drop_same {α : Type} (t : Tab α) (k : Nat) : Tab.look (Tab.drop t k) k = none := by
  induction t with
  | nil => rfl
  | cons e t ih =>
    obtain ⟨i, w⟩ := e
    unfold Tab.drop at ih ⊢
    rw [List.filter_cons]
    split
    · next h => simp only [decide_eq_true_eq] at h; simp only [Tab.look, if_neg h, ih]
    · exact ih

/-- Removing one record leaves the others. -/
theorem Tab.look_drop_other {α : Type} (t : Tab α) {j k : Nat} (h : j ≠ k) : Tab.look (Tab.drop t k) j = Tab.look t j := by
  induction t with
  | nil => rfl
  | cons e t ih =>
    obtain ⟨i, w⟩ := e
    unfold Tab.drop at ih ⊢
    rw [List.filter_cons]
    split
    · simp only [Tab.look, ih]
    · next hi =>
      simp only [decide_eq_true_eq, not_not] at hi
      simp only [Tab.look, hi, if_neg (Ne.symm h), ih]

theorem Tab.mem_of_look {α : Type} {t : Tab α} {k : Nat} {v : α} (h : Tab.look t k = some v) : (k, v) ∈ t := by
  induction t with
  | nil => cases h
  | cons e t ih =>
    obtain ⟨i, w⟩ := e
    unfold Tab.look at h
    split at h
    · next hi => cases h; subst hi; exact List.mem_cons_self ..
    · exact List.mem_cons_of_mem _ (ih h)

theorem Tab.look_of_mem {α : Type} {t : Tab α} {k : Nat} {v : α} (hw : Tab.wf t = true) (h : (k, v) ∈ t) :
    Tab.look t k = some v := by
  induction t with
  | nil => cases h
  | cons e t ih =>
    obtain ⟨i, w⟩ := e
    obtain ⟨ht, ha⟩ := Tab.wf_cons hw
    rcases List.mem_cons.1 h with he | he
    · cases he; simp [Tab.look]
    · have := ha _ he
      simp only [Tab.look]
      rw [if_neg (by simp at this; omega)]
      exact ih ht he

end Sys2Proof.Machine
end

