-- ==== Sys2Proof/Laws/Changes.lean ====
section
/-! SUPPORT. Everything a request can do to the part, said once: `Change p s t` lists the states `t` that a request of port `p` can
leave, each with what held when it was taken. Statements about every request go by cases on it. -/

namespace Sys2Proof.Machine

/-- R24 step 3 to 6, R9: a take that is not RECORDING serves a segment, as the request found it. -/
def State.serves (s : State) (th : Nat) (g : Segment) : Prop :=
  ∃ x, s.take? th g.take = some x ∧ x.state ≠ .recording ∧ segmentInRange s.takeMem g x = true

/-- What a taken edit makes of a segment list, the groups that gain a reference, and the groups that lose one. -/
inductive SegmentEdit (s : State) (th : Nat) (l : List Segment) : List Segment → List Nat → List Nat → Prop
  /-- SET-CHAPTER-PADS. -/
  | kept : SegmentEdit s th l l [] []
  /-- INSERT-SEGMENT. -/
  | inserted (i : Nat) (g : Segment) (hi : i ≤ l.length) (hl : l.length < 32) (hg : s.serves th g) :
      SegmentEdit s th l (l.insertIdx i g) (s.takeMem.segmentGroups g) []
  /-- REPLACE-SEGMENT. -/
  | replaced (i : Nat) (g old : Segment) (ho : l[i]? = some old) (hg : s.serves th g) :
      SegmentEdit s th l (l.set i g) (s.takeMem.segmentGroups g) (s.takeMem.segmentGroups old)
  /-- REMOVE-SEGMENT. -/
  | removed (i : Nat) (old : Segment) (ho : l[i]? = some old) :
      SegmentEdit s th l (l.eraseIdx i) [] (s.takeMem.segmentGroups old)

/-- What a request of port `p`, taken in state `s`, can leave. -/
inductive Change (p : Port) (s : State) : State → Prop
  /-- A refusal, or a request that only reads. -/
  | same : Change p s s
  /-- REGISTER-TITLE. -/
  | registered (h : Nat) (t : Title) (hf : s.title? h = none) (hr : 1 ≤ h ∧ h ≤ 4) : Change p s (s.setTitle h t)
  /-- HOLD-TITLE, RELEASE-TITLE, FINALIZE-TITLE. -/
  | titleState (th : Nat) (t : Title) (st : TitleState) (ht : s.title? th = some t) :
      Change p s (s.setTitle th { t with state := st })
  /-- SET-TITLE-PARAMS, SET-PROFILE, SET-PROFILE-COUNT. -/
  | titleParams (th : Nat) (t t' : Title) (ht : s.title? th = some t) (hl : s.titleInLane th = false) (hr : t'.roomTone = t.roomTone) :
      Change p s ((s.setTitle th t').markStale th)
  /-- SET-ROOM-TONE, CLEAR-ROOM-TONE. -/
  | tone (th : Nat) (t : Title) (r : Option RoomSpan) (ht : s.title? th = some t) (hl : s.titleInLane th = false)
      (hr : ∀ x, r = some x → ∃ k, s.take? th x.take = some k ∧ k.state ≠ .recording ∧
        toneInRange s.takeMem x.take x.start x.length k = true) :
      Change p s ((s.moveTone th t r).markStale th)
  /-- RETIRE-TITLE. -/
  | retired (th : Nat) (t : Title) (ht : s.title? th = some t) (hl : s.titleInLane th = false)
      (hr : s.titleRecording th = false) (hh : s.holdTable.holds.any (fun e => decide (e.2.chapter.title = th)) = false) :
      Change p s (s.retire th t)
  /-- DEFINE-CHAPTER. -/
  | defined (th index : Nat) (t : Title) (ht : s.title? th = some t) (hi : index ≤ 127)
      (hn : s.chapter? ⟨th, index⟩ = none) : Change p s (s.setChapter ⟨th, index⟩ newChapter)
  /-- DELETE-CHAPTER. -/
  | deleted (th index : Nat) (t : Title) (k : Chapter) (ht : s.title? th = some t) (hi : index ≤ 127)
      (hk : s.chapter? ⟨th, index⟩ = some k) (hh : s.held ⟨th, index⟩ = false) :
      Change p s ((s.unqueue ⟨th, index⟩ k .deleted).eraseChapter ⟨th, index⟩ k)
  /-- SET-CHAPTER-PADS, INSERT-SEGMENT, REPLACE-SEGMENT, REMOVE-SEGMENT: the groups of `up` gain a reference, then those of `dn`
  lose one. -/
  | edited (th index : Nat) (t : Title) (k k' : Chapter) (up dn : List Nat) (ht : s.title? th = some t) (hi : index ≤ 127)
      (hk : s.chapter? ⟨th, index⟩ = some k) (hst : k'.state = k.state) (hpr : k'.priority = k.priority)
      (hpub : k'.published = k.published) (hser : k'.serial = k.serial) (hstale : k'.stale = k.stale)
      (he : SegmentEdit s th k.segments k'.segments up dn) :
      Change p s ((s.setTakeMem ((s.takeMem.raise up).lower dn)).editChapter ⟨th, index⟩ k')
  /-- QUEUE-RENDER. -/
  | queued (th index : Nat) (t : Title) (k : Chapter) (q : Priority) (ht : s.title? th = some t) (hi : index ≤ 127)
      (hk : s.chapter? ⟨th, index⟩ = some k) (hb : k.state.busy = false) (hg : k.segments ≠ []) (hc : s.queue.count < 64) :
      Change p s (s.enqueue ⟨th, index⟩ k q)
  /-- CANCEL-RENDER. -/
  | cancelled (th index : Nat) (t : Title) (k : Chapter) (ht : s.title? th = some t) (hi : index ≤ 127)
      (hk : s.chapter? ⟨th, index⟩ = some k) (hb : k.state.busy = true) : Change p s (s.cancel ⟨th, index⟩ k)
  /-- SET-WHEEL. -/
  | wheel (w : Pattern) : Change p s { s with wheel := { s.wheel with pending := some w } }
  /-- SET-LANES. -/
  | lanes (m : Byte) : Change p s { s with lanes := enableLanes m s.lanes }
  /-- SET-HOLD-LIMIT. -/
  | limit (n : Nat) (hn : 1 ≤ n ∧ n ≤ 60) : Change p s { s with holdTable := { s.holdTable with limit := n } }
  /-- OPEN-READ. -/
  | opened (th index rendition slot : Nat) (k : Chapter) (set : PublishedSet) (i : Image)
      (hx : index ≤ 127) (hp : k.published = true) (hk : s.chapter? ⟨th, index⟩ = some k)
      (hset : Tab.look s.rendMem.sets (ChapterId.key ⟨th, index⟩) = some set)
      (hi : set.image? rendition = some i) (hst : k.state ≠ .commitWait)
      (hc : s.holdTable.holds.length < 16 ∧ (s.holdsOf p).length < 8) (hs : s.holdTable.freeSlot = some slot) :
      Change p s { s with holdTable := s.holdTable.open_ slot (newHold p ⟨th, index⟩ rendition k.serial s.holdTable.limit) }
  /-- READ-RANGE. -/
  | reading (slot offset length : Nat) (h : Hold) (hh : Tab.look s.holdTable.holds slot = some h) (ho : h.owner = p)
      (hl : 1 ≤ length ∧ length ≤ 4096) (hof : offset < s.heldSize h) :
      Change p s (s.setHold slot (h.reading s.holdTable.limit offset length (s.heldSize h)))
  /-- CLOSE-READ. -/
  | closed (slot : Nat) (h : Hold) (hh : Tab.look s.holdTable.holds slot = some h) (ho : h.owner = p) :
      Change p s (s.endHold slot)
  /-- POP-NOTICE. -/
  | popped (code : Nat) (hc : code ≤ 4) : Change p s (s.changePort p (fun r => { r with lists := r.lists.pop code }))
  /-- SET-NOTICE-MASK. -/
  | masked (m : NoticeMask) : Change p s (s.changePort p (fun r => { r with mask := m }))
  /-- PORT-RESET. -/
  | portReset : Change p s (s.resetPort p)
  /-- OPEN-TAKE. -/
  | takeOpened (th id g : Nat) (rest : List Nat) (hf : s.takeMem.freeId = some id) (hc : s.takeMem.clean = g :: rest) :
      Change p s (s.setTakeMem (s.takeMem.open_ th id g))
  /-- WRITE-BLOCK. -/
  | writing (take : Nat) (t : Take) (ht : Tab.look s.takeMem.takes take = some t) (hr : 1 ≤ take ∧ take ≤ 1024)
      (hst : t.state = .recording) (hn : t.inFlight = none)
      (hg : startsGroup t.blocks = true → s.takeMem.clean ≠ []) :
      Change p s (s.setTakeMem (s.takeMem.startBlock take t t.blocks))
  /-- CLOSE-TAKE of a take with no block. -/
  | takeFreed (take : Nat) (t : Take) (ht : Tab.look s.takeMem.takes take = some t) (hst : t.state = .recording)
      (hn : t.inFlight = none) (hb : t.blocks = 0) :
      Change p s ((s.setTakeMem (s.takeMem.releaseAll t.owned)).dropTake take)
  /-- CLOSE-TAKE of a take with blocks. -/
  | takeClosed (take tail : Nat) (t : Take) (ht : Tab.look s.takeMem.takes take = some t) (hst : t.state = .recording)
      (hn : t.inFlight = none) (hb : t.blocks ≠ 0) :
      Change p s (s.setTakeMem (s.takeMem.setTake take { t with state := .closed, tail := some tail }))
  /-- DISCARD-FIRST, DISCARD-LAST. -/
  | sequence (d : DiscardSeq) (hd : d.isSet = true) : Change p s (s.setSequence p d)
  /-- DISCARD-COMMIT. -/
  | discarded (take first last : Nat) (hs : (s.port p).sequence = .bothSet take first last) :
      Change p s (s.commitDiscard p take first last)

/-! ### The checks that several requests share -/

theorem withTitle_change {p : Port} {s : State} {th : Nat} {k : Title → Answer × State}
    (h : ∀ t, s.title? th = some t → Change p s (k t).2) : Change p s (withTitle th s k).2 := by
  unfold withTitle
  split
  · exact .same
  · next t ht => exact h t ht

theorem withTake_resolved {p : Port} {s : State} {th take : Nat} {k : Take → Answer × State}
    (h : ∀ t, s.take? th take = some t → Change p s (k t).2) : Change p s (withTake th take s k).2 := by
  unfold withTake
  split
  · exact .same
  · next t ht => exact h t ht

theorem withTake_change {p : Port} {s : State} {th take : Nat} {k : Take → Answer × State}
    (h : ∀ t, Tab.look s.takeMem.takes take = some t → t.title = th → 1 ≤ take ∧ take ≤ 1024 → Change p s (k t).2) :
    Change p s (withTake th take s k).2 := by
  refine withTake_resolved fun t ht => ?_
  · unfold State.take? at ht
    split at ht
    · next hr =>
      split at ht
      · cases ht
      · next t' ht' =>
        split at ht
        · next htt => cases ht; exact h _ ht' htt hr
        · cases ht
    · cases ht

theorem withChapter_change {p : Port} {s : State} {th index : Nat} {k : Chapter → Answer × State}
    (h : ∀ c, index ≤ 127 → s.chapter? ⟨th, index⟩ = some c → Change p s (k c).2) :
    Change p s (withChapter th index s k).2 := by
  unfold withChapter
  split
  · exact .same
  · next hi =>
    split
    · exact .same
    · next c hc => exact h c (by omega) hc

theorem titleChange_change {p : Port} {s : State} {th : Nat} {k : Title → Answer × State}
    (h : ∀ t, s.title? th = some t → t.state = .opened → s.titleInLane th = false → Change p s (k t).2) :
    Change p s (titleChange th s k).2 := by
  unfold titleChange
  refine withTitle_change fun t ht => ?_
  split
  · exact .same
  · next hst =>
    split
    · exact .same
    · next hl => exact h t ht (not_not.1 hst) (by simpa using hl)

theorem withOpenTitle_change {p : Port} {s : State} {th : Nat} {k : Title → Answer × State}
    (h : ∀ t, s.title? th = some t → t.state = .opened → Change p s (k t).2) :
    Change p s (withOpenTitle th s k).2 := by
  unfold withOpenTitle
  refine withTitle_change fun t ht => ?_
  split
  · exact .same
  · next hst => exact h t ht (not_not.1 hst)

theorem withHold_change {p : Port} {s : State} {th slot generation : Nat} {k : Hold → Answer × State}
    (h : ∀ x, Tab.look s.holdTable.holds slot = some x → x.owner = p → x.chapter.title = th →
      s.holdTable.generation slot = generation → Change p s (k x).2) :
    Change p s (withHold p th slot generation s k).2 := by
  unfold withHold
  split
  · exact .same
  · split
    · exact .same
    · next x hx =>
      split
      · exact .same
      · next hg =>
        split
        · exact .same
        · next ho =>
          simp only [not_or, not_not] at ho
          exact h x hx ho.1 ho.2 (not_not.1 hg)

/-! ### The requests -/

theorem openTake_change (p : Port) (th : Nat) (s : State) : Change p s (openTake th s).2 := by
  unfold openTake
  refine withTitle_change fun t ht => ?_
  split
  · exact .same
  · split
    · exact .same
    · exact .same
    · next id g rest hf hc => exact .takeOpened th id g rest hf hc

theorem writeBlock_change (p : Port) (th take block : Nat) (data : List Byte) (crc : BitVec 16) (s : State) :
    Change p s (writeBlock th take block data crc s).2 := by
  unfold writeBlock
  refine withTitle_change fun _ _ => withTake_change fun t ht _ hr => ?_
  split
  · exact .same
  next hst =>
  split
  · exact .same
  next hn =>
  split
  · exact .same
  split
  · exact .same
  next hb =>
  split
  · exact .same
  split
  · exact .same
  next hg =>
  have hb' : block = t.blocks := not_not.1 hb
  subst hb'
  exact .writing take t ht hr (not_not.1 hst) (by simpa using hn) (fun h1 h2 => hg ⟨h1, h2⟩)

theorem closeTake_change (p : Port) (th take tail : Nat) (s : State) : Change p s (closeTake th take tail s).2 := by
  unfold closeTake
  refine withTitle_change fun _ _ => withTake_change fun t ht _ _ => ?_
  split
  · exact .same
  next hst =>
  split
  · exact .same
  next hn =>
  split
  · exact .same
  split
  · next hb => exact .takeFreed take t ht (not_not.1 hst) (by simpa using hn) hb
  · next hb => exact .takeClosed take tail t ht (not_not.1 hst) (by simpa using hn) hb

theorem discardFirst_change (p : Port) (th take index : Nat) (s : State) : Change p s (discardFirst p th take index s).2 := by
  unfold discardFirst
  refine withTitle_change fun _ _ => withTake_change fun t _ _ _ => ?_
  split
  · exact .same
  · exact .sequence _ rfl

theorem discardLast_change (p : Port) (th take index : Nat) (s : State) : Change p s (discardLast p th take index s).2 := by
  unfold discardLast
  refine withTitle_change fun _ _ => ?_
  split
  · exact .same
  · exact .same
  · refine withTake_change fun t _ _ _ => ?_
    split
    · exact .same
    split
    · exact .same
    split
    · exact .same
    · exact .sequence _ rfl

theorem discardCommit_change (p : Port) (th : Nat) (s : State) : Change p s (discardCommit p th s).2 := by
  unfold discardCommit
  refine withTitle_change fun _ _ => ?_
  split
  · exact .same
  split
  · exact .same
  · exact .same
  · next take first last hs => exact withTake_change fun t _ _ _ => .discarded take first last hs

theorem registerTitle_change (p : Port) (catalogue : Nat) (s : State) : Change p s (registerTitle catalogue s).2 := by
  unfold registerTitle
  split
  · exact .same
  split
  · exact .same
  · split
    · exact .same
    · next h hf =>
      have h1 := List.find?_some hf
      have h2 := List.mem_of_find?_eq_some hf
      simp only [Option.isNone_iff_eq_none] at h1
      refine .registered h _ h1 ?_
      simp only [List.mem_cons, List.not_mem_nil, or_false] at h2
      omega

theorem setTitleParams_change (p : Port) (th : Nat) (mask : Byte) (v : Loudness) (s : State) :
    Change p s (setTitleParams th mask v s).2 :=
  titleChange_change fun t ht _ hl => .titleParams th t _ ht hl rfl

theorem setProfile_change (p : Port) (th index : Nat) (q : Profile) (s : State) : Change p s (setProfile th index q s).2 := by
  refine titleChange_change fun t ht _ hl => ?_
  split
  · exact .same
  · exact .titleParams th t _ ht hl rfl

theorem setProfileCount_change (p : Port) (th n : Nat) (s : State) : Change p s (setProfileCount th n s).2 := by
  refine titleChange_change fun t ht _ hl => ?_
  split
  · exact .same
  · exact .titleParams th t _ ht hl rfl

theorem setRoomTone_change (p : Port) (th take start length : Nat) (s : State) :
    Change p s (setRoomTone th take start length s).2 := by
  refine titleChange_change fun t ht _ hl => withTake_resolved fun k hk => ?_
  split
  · exact .same
  next hst =>
  split
  · exact .same
  · next hr =>
    refine .tone th t _ ht hl fun x hx => ?_
    cases hx
    exact ⟨k, hk, hst, by simpa using hr⟩

theorem clearRoomTone_change (p : Port) (th : Nat) (s : State) : Change p s (clearRoomTone th s).2 :=
  titleChange_change fun t ht _ hl => .tone th t none ht hl fun _ h => nomatch h

theorem holdTitle_change (p : Port) (th : Nat) (s : State) : Change p s (holdTitle th s).2 := by
  refine withTitle_change fun t ht => ?_
  split
  · exact .titleState th t _ ht
  · exact .same
  · exact .same

theorem releaseTitle_change (p : Port) (th : Nat) (s : State) : Change p s (releaseTitle th s).2 := by
  refine withTitle_change fun t ht => ?_
  split
  · exact .titleState th t _ ht
  · exact .same
  · exact .same

theorem finalizeTitle_change (p : Port) (th : Nat) (s : State) : Change p s (finalizeTitle th s).2 := by
  refine withTitle_change fun t ht => ?_
  split
  · exact .same
  split
  · exact .same
  split
  · exact .same
  split
  · exact .same
  · exact .titleState th t _ ht

theorem retireTitle_change (p : Port) (th : Nat) (s : State) : Change p s (retireTitle th s).2 := by
  refine withTitle_change fun t ht => ?_
  split
  · exact .same
  next hl =>
  split
  · exact .same
  · next hh =>
    simp only [Bool.or_eq_true, not_or, Bool.not_eq_true] at hl
    exact .retired th t ht hl.1 hl.2 (by simpa using hh)

theorem defineChapter_change (p : Port) (th index : Nat) (s : State) : Change p s (defineChapter th index s).2 := by
  refine withOpenTitle_change fun t ht _ => ?_
  split
  · exact .same
  next hi =>
  split
  · exact .same
  · next hn => exact .defined th index t ht (by omega) hn

theorem deleteChapter_change (p : Port) (th index : Nat) (s : State) : Change p s (deleteChapter th index s).2 := by
  refine withOpenTitle_change fun t ht _ => withChapter_change fun k hi hk => ?_
  split
  · exact .same
  · next hh => exact .deleted th index t k ht hi hk (by simpa using hh)

theorem setChapterPads_change (p : Port) (th index head tail : Nat) (s : State) :
    Change p s (setChapterPads th index head tail s).2 := by
  refine withOpenTitle_change fun t ht _ => withChapter_change fun k hi hk => ?_
  split
  · exact .same
  · exact .edited th index t k { k with headPad := head, tailPad := tail } [] [] ht hi hk rfl rfl rfl rfl rfl .kept

theorem withSegment_change {p : Port} {s : State} {th : Nat} {g : Segment} {l : List Segment} {k : Chapter}
    {e : Answer × State} (h : s.serves th g → Change p s e.2) : Change p s (withSegment th g l k s e).2 := by
  refine withTake_resolved fun t ht => ?_
  split
  · exact .same
  next hst =>
  split
  · exact .same
  · next hr =>
    rw [not_or] at hr
    exact h ⟨t, ht, hst, by simpa using hr.1⟩

theorem insertSegment_change (p : Port) (th index position : Nat) (g : Segment) (s : State) :
    Change p s (insertSegment th index position g s).2 := by
  refine withOpenTitle_change fun t ht _ => withChapter_change fun k hi hk => ?_
  split
  · exact .same
  next hp =>
  split
  · exact .same
  · next hl =>
    exact withSegment_change fun hg =>
      .edited th index t k { k with segments := k.segments.insertIdx position g } (s.takeMem.segmentGroups g) []
        ht hi hk rfl rfl rfl rfl rfl (.inserted position g (by omega) (by omega) hg)

theorem replaceSegment_change (p : Port) (th index position : Nat) (g : Segment) (s : State) :
    Change p s (replaceSegment th index position g s).2 := by
  refine withOpenTitle_change fun t ht _ => withChapter_change fun k hi hk => ?_
  split
  · exact .same
  · next old ho =>
    exact withSegment_change fun hg =>
      .edited th index t k { k with segments := k.segments.set position g } (s.takeMem.segmentGroups g)
        (s.takeMem.segmentGroups old) ht hi hk rfl rfl rfl rfl rfl (.replaced position g old ho hg)

theorem removeSegment_change (p : Port) (th index position : Nat) (s : State) :
    Change p s (removeSegment th index position s).2 := by
  refine withOpenTitle_change fun t ht _ => withChapter_change fun k hi hk => ?_
  split
  · exact .same
  · next old ho =>
    split
    · exact .same
    · exact .edited th index t k { k with segments := k.segments.eraseIdx position } [] (s.takeMem.segmentGroups old)
        ht hi hk rfl rfl rfl rfl rfl (.removed position old ho)

theorem queueRender_change (p : Port) (th index priority : Nat) (s : State) :
    Change p s (queueRender th index priority s).2 := by
  refine withTitle_change fun t ht => ?_
  split
  · exact .same
  refine withChapter_change fun k hi hk => ?_
  split
  · exact .same
  split
  · exact .same
  next hb =>
  split
  · exact .same
  next hg =>
  split
  · exact .same
  · next hc => exact .queued th index t k _ ht hi hk (by simpa using hb) hg (by omega)

theorem cancelRender_change (p : Port) (th index : Nat) (s : State) : Change p s (cancelRender th index s).2 := by
  refine withTitle_change fun t ht => withChapter_change fun k hi hk => ?_
  split
  · exact .same
  · next hb => exact .cancelled th index t k ht hi hk (by simpa using hb)

theorem setWheel_change (p : Port) (e0 e1 e2 e3 : Nat) (s : State) : Change p s (setWheel e0 e1 e2 e3 s).2 := by
  unfold setWheel
  split
  · exact .wheel _
  · exact .same

theorem setLanes_change (p : Port) (m : Byte) (s : State) : Change p s (setLanes m s).2 := by
  unfold setLanes
  split
  · exact .same
  · exact .lanes m

theorem clampTo_range {lo hi x : Int} (h : lo ≤ hi) : lo ≤ clampTo lo hi x ∧ clampTo lo hi x ≤ hi := by
  unfold clampTo
  split
  · omega
  · split <;> omega

theorem setHoldLimit_change (p : Port) (n : Int) (s : State) : Change p s (setHoldLimit n s).2 := by
  have := clampTo_range (lo := 1) (hi := 60) (x := n) (by omega)
  exact .limit _ (by omega)

theorem openRead_change (p : Port) (th index rendition : Nat) (s : State) :
    Change p s (openRead p th index rendition s).2 := by
  refine withTitle_change fun t ht => withChapter_change fun k hx hk => ?_
  split
  · exact .same
  split
  · exact .same
  next hp =>
  split
  · exact .same
  next set hset =>
  split
  · exact .same
  next i himg =>
  split
  · exact .same
  split
  · exact .same
  next hst =>
  split
  · exact .same
  next hc =>
  split
  · exact .same
  · next slot hs => exact .opened th index rendition slot k set i hx (by simpa using hp) hk hset himg hst (by omega) hs

theorem readRange_change (p : Port) (th slot generation offset length : Nat) (s : State) :
    Change p s (readRange p th slot generation offset length s).2 := by
  refine withTitle_change fun _ _ => withHold_change fun h hh ho _ _ => ?_
  split
  · exact .same
  split
  · exact .same
  · exact .reading slot offset length h hh ho (by omega) (by omega)

theorem closeRead_change (p : Port) (th slot generation : Nat) (s : State) :
    Change p s (closeRead p th slot generation s).2 :=
  withTitle_change fun _ _ => withHold_change fun h hh ho _ _ => .closed slot h hh ho

theorem chapterInfo_change (p : Port) (th index : Nat) (s : State) : Change p s (chapterInfo th index s).2 := by
  refine withTitle_change fun _ _ => ?_
  split
  · exact .same
  split
  · exact .same
  · exact .same

theorem takeInfo_change (p : Port) (th take first : Nat) (s : State) : Change p s (takeInfo th take first s).2 := by
  refine withTitle_change fun _ _ => withTake_change fun _ _ _ _ => ?_
  split
  · exact .same
  · exact .same

theorem popNotice_change (p : Port) (code : Nat) (s : State) : Change p s (popNotice p code s).2 := by
  unfold popNotice
  split
  · exact .same
  next hc =>
  split
  · exact .same
  · exact .popped code (by omega)

theorem setNoticeMask_change (p : Port) (m : Byte) (s : State) : Change p s (setNoticeMask p m s).2 := by
  unfold setNoticeMask
  split
  · exact .same
  · exact .masked _

/-- Everything a request can leave is in the list. -/
theorem handle_change (p : Port) (r : Request) (s : State) : Change p s (handle p r s).2 := by
  cases r with
  | openTake th => exact openTake_change ..
  | writeBlock th take block data crc => exact writeBlock_change ..
  | closeTake th take tail => exact closeTake_change ..
  | discardFirst th take index => exact discardFirst_change ..
  | discardLast th take index => exact discardLast_change ..
  | discardCommit th => exact discardCommit_change ..
  | registerTitle catalogue => exact registerTitle_change ..
  | setTitleParams th mask values => exact setTitleParams_change ..
  | setProfile th index profile => exact setProfile_change ..
  | setProfileCount th count => exact setProfileCount_change ..
  | setRoomTone th take start length => exact setRoomTone_change ..
  | clearRoomTone th => exact clearRoomTone_change ..
  | holdTitle th => exact holdTitle_change ..
  | releaseTitle th => exact releaseTitle_change ..
  | finalizeTitle th => exact finalizeTitle_change ..
  | retireTitle th => exact retireTitle_change ..
  | defineChapter th chapter => exact defineChapter_change ..
  | deleteChapter th chapter => exact deleteChapter_change ..
  | setChapterPads th chapter head tail => exact setChapterPads_change ..
  | insertSegment th chapter position segment => exact insertSegment_change ..
  | replaceSegment th chapter position segment => exact replaceSegment_change ..
  | removeSegment th chapter position => exact removeSegment_change ..
  | queueRender th chapter priority => exact queueRender_change ..
  | cancelRender th chapter => exact cancelRender_change ..
  | setWheel e0 e1 e2 e3 => exact setWheel_change ..
  | setLanes lanes => exact setLanes_change ..
  | setHoldLimit seconds => exact setHoldLimit_change ..
  | openRead th chapter rendition => exact openRead_change ..
  | readRange th slot generation offset length => exact readRange_change ..
  | closeRead th slot generation => exact closeRead_change ..
  | titleInfo th => exact withTitle_change fun _ _ => .same
  | chapterInfo th chapter => exact chapterInfo_change ..
  | takeInfo th take first => exact takeInfo_change ..
  | laneInfo => exact .same
  | popNotice list => exact popNotice_change ..
  | setNoticeMask lists => exact setNoticeMask_change ..
  | deviceStatus => exact .same
  | portReset => exact .portReset

end Sys2Proof.Machine
end

