-- ==== Sys2Proof/Laws/Frames.lean ====
section
/-! SUPPORT. The bytes of the frames: how long they are, and that a number read from the place it was written to is the number. -/

namespace Sys2Proof.Machine

@[simp] theorem length_le (k n : Nat) : (le k n).length = k := by
  induction k generalizing n with
  | zero => rfl
  | succ k ih => simp [le, ih]

@[simp] theorem length_leI (x : Int) : (leI x).length = 2 := length_le 2 _

@[simp] theorem length_segmentBytes (g : Segment) : (segmentBytes g).length = 18 := by simp [segmentBytes]

@[simp] theorem length_profileBytes (p : Profile) : (profileBytes p).length = 11 := by simp [profileBytes]

@[simp] theorem length_loudnessBytes (l : Loudness) : (loudnessBytes l).length = 10 := by simp [loudnessBytes]

/-- A number that fits its bytes is read back from them. -/
theorem unle_le (k n : Nat) (h : n < 256 ^ k) : unle (le k n) = n := by
  induction k generalizing n with
  | zero => simp at h; simp [le, unle, h]
  | succ k ih =>
    simp only [le, unle, BitVec.toNat_ofNat]
    rw [ih (n / 256) (by rw [Nat.div_lt_iff_lt_mul (by omega)]; rw [Nat.pow_succ] at h; exact h)]
    omega

/-- The field that stands first. -/
theorem fieldAt_first (k n : Nat) (bs : List Byte) (h : n < 256 ^ k) : fieldAt (le k n ++ bs) 0 k = n := by
  unfold fieldAt
  rw [List.drop_zero, List.take_left' (length_le k n), unle_le k n h]

/-- The field that stands alone. -/
theorem fieldAt_only (k n : Nat) (h : n < 256 ^ k) : fieldAt (le k n) 0 k = n := by
  have := fieldAt_first k n [] h
  simpa using this

/-- A field past some other bytes. -/
theorem fieldAt_append (a bs : List Byte) (j k : Nat) : fieldAt (a ++ bs) (a.length + j) k = fieldAt bs j k := by
  unfold fieldAt
  rw [← List.drop_drop, List.drop_left]

/-- A field past another field. -/
theorem fieldAt_skip (m n : Nat) (bs : List Byte) (i k : Nat) (h : m ≤ i) :
    fieldAt (le m n ++ bs) i k = fieldAt bs (i - m) k := by
  have := fieldAt_append (le m n) bs (i - m) k
  rwa [length_le, Nat.add_sub_cancel' h] at this

/-- A field past one byte. -/
theorem fieldAt_cons (b : Byte) (bs : List Byte) (i k : Nat) (h : 1 ≤ i) : fieldAt (b :: bs) i k = fieldAt bs (i - 1) k := by
  unfold fieldAt
  obtain ⟨j, rfl⟩ := Nat.exists_eq_add_of_le h
  rw [Nat.add_comm 1 j]
  rfl

/-- A signed number that fits two bytes is read back from them. -/
theorem toInt_leI (x : Int) (h : fitsI x = true) : (BitVec.ofNat 16 (BitVec.ofInt 16 x).toNat).toInt = x := by
  simp only [fitsI, Bool.and_eq_true, decide_eq_true_eq] at h
  rw [BitVec.ofNat_toNat]
  simp only [BitVec.setWidth_eq, BitVec.toInt_ofInt]
  simp [Int.bmod]
  omega

end Sys2Proof.Machine
end

