-- ==== Sys2Proof/Laws/Kept.lean ====
section
/-! SUPPORT. How a property of the part is shown to be kept by every step: once, for all properties. `Kept P` asks for one fact for
each thing the part can do; `Kept.step` gives the rest. `KeptAside` is the same without the ends of block programs, for a property
that is kept there only because of what the ports hold. -/

namespace Sys2Proof.Machine

/-- What there is to show of a property, for every step but the end of a block program to keep it. -/
structure KeptAside (P : State → Prop) : Prop where
  /-- The property does not look at the ports but for their notice lists. -/
  ports : ∀ (s : State) (q : Ports), (∀ p, (q.get p).lists = (s.ports.get p).lists) → P s → P { s with ports := q }
  /-- It does not look at the queue of commands. -/
  pending : ∀ (s : State) (l : List Instr), P s → P { s with pending := l }
  /-- It does not look at whether a device reset is held. -/
  resetHeld : ∀ (s : State) (r : Option ResetCause), P s → P { s with resetHeld := r }
  /-- Requests keep it. -/
  change : ∀ (p : Port) (s t : State), Change p s t → P s → P t
  endFetch : ∀ (s : State) (slot : Nat), P s → P (s.endFetch slot)
  endHold : ∀ (s : State) (slot : Nat), P s → P (s.endHold slot)
  eraseStart : ∀ s : State, P s → P (s.setTakeMem s.takeMem.eraseStart)
  eraseDone : ∀ s : State, P s → P (s.setTakeMem s.takeMem.eraseDone)
  eraseFailed : ∀ s : State, P s → P (s.setTakeMem s.takeMem.eraseFailed)
  dispatch : ∀ s : State, P s → P s.dispatchOne
  slot : ∀ (s t : State) (f : Option Nat), s.grantSlot f = some t → P s → P t
  advance : ∀ s : State, P s → P s.advanceWheel
  clock : ∀ s : State, P s → P { s with holdTable := s.holdTable.clockStep }
  expire : ∀ s : State, P s → P s.expireHold
  abandon : ∀ s : State, P s → P s.abandonAll
  restart : ∀ (s : State) (cause : ResetCause) (ra rb rc : Role), P s → P (s.restart cause ra rb rc)

/-- What there is to show of a property, for every step to keep it. -/
structure Kept (P : State → Prop) : Prop extends KeptAside P where
  blockDone : ∀ (s : State) (take : Nat) (t : Take) (block : Nat) (data : List Byte),
    Tab.look s.takeMem.takes take = some t → P s → P (s.setTakeMem (s.takeMem.blockDone take t block data))
  blockFailed : ∀ (s : State) (take : Nat) (t : Take) (block g : Nat),
    Tab.look s.takeMem.takes take = some t → t.current = some g → P s → P (s.blockFailed take t block g)

namespace KeptAside

variable {P : State → Prop}

theorem changePort (h : KeptAside P) {s : State} (p : Port) {f : PortRecord → PortRecord}
    (hf : ∀ r, (f r).lists = r.lists) (hs : P s) : P (s.changePort p f) := by
  refine h.ports s _ (fun p' => ?_) hs
  by_cases hp : p' = p
  · subst hp; simp [hf, State.port]
  · simp [Ports.get_set_other _ _ hp]

theorem driveAttn (h : KeptAside P) {s : State} (hs : P s) : P s.driveAttn :=
  h.ports s _ (fun p => by simp) hs

theorem settle (h : KeptAside P) {s : State} (p : Port) (tag : Byte) (r : Request) (b : Bool) (a : Answer) (hs : P s) :
    P (s.settle p tag r b a) := by
  unfold State.settle
  split
  · exact h.changePort p (fun _ => rfl) hs
  · split
    · exact h.changePort p (fun _ => rfl) hs
    · exact h.changePort p (fun _ => rfl) (h.changePort p (fun _ => rfl) hs)

theorem turnAway (h : KeptAside P) {s : State} (p : Port) (tag : Byte) (st : Status) (hs : P s) : P (s.turnAway p tag st) := by
  unfold State.turnAway State.answer State.setSequence
  exact h.changePort p (fun _ => rfl) (h.changePort p (fun _ => rfl) hs)

theorem takeRequest (h : KeptAside P) {s : State} (p : Port) (tag : Byte) (r : Request) (hs : P s) :
    P (s.takeRequest p tag r) := by
  have away : ∀ st, P (s.turnAway p tag st) := fun st => h.turnAway p tag st hs
  unfold State.takeRequest
  split
  · exact away _
  split
  · exact away _
  · refine h.settle p tag r _ _ (h.change p _ _ (handle_change p r _) ?_)
    unfold State.interrupt
    split
    · exact hs
    · exact h.changePort p (fun _ => rfl) hs

theorem takeBytes (h : KeptAside P) {s : State} (p : Port) (bs : List Byte) (hs : P s) : P (s.takeBytes p bs) := by
  unfold State.takeBytes
  split
  · exact hs
  · exact h.turnAway p _ _ hs
  · exact h.takeRequest _ _ _ hs

theorem endSpan (h : KeptAside P) {s : State} (p : Port) (n : Nat) {take : State → State} (ht : ∀ s, P s → P (take s))
    (hs : P s) : P (s.endSpan p n take) := by
  have hc : P (s.closeSpan p n) := h.changePort p (fun _ => rfl) hs
  unfold State.endSpan
  split
  · exact ht _ hc
  · split
    · exact h.changePort p (fun _ => rfl) hc
    · exact hc
  all_goals exact hc

theorem finish (h : KeptAside P) {s t : State} (ht : Machine.finish s = .next t) (hs : P s) : P t := by
  cases ht
  exact h.driveAttn hs

theorem event (h : KeptAside P) {s t : State} (f : State → State) (hf : P s → P (f s)) (ht : Machine.event f s = .next t)
    (hs : P s) : P t := by
  unfold Machine.event at ht
  refine h.finish ht ?_
  split
  · exact hs
  · exact hf hs

theorem request (h : KeptAside P) {s t : State} {p : Port} {tag : Byte} {r : Request}
    (ht : Machine.request p tag r s = .next t) (hs : P s) : P t :=
  h.finish ht (h.endSpan p _ (fun _ hs => h.takeRequest p tag r hs) hs)

theorem completeOp (h : KeptAside P) {s : State} (p : Port) (o : Operation) (res : Result) (hs : P s) :
    P (s.completeOp p o res) := by
  unfold State.completeOp
  split
  · exact h.changePort p (fun _ => rfl) hs
  · exact h.changePort p (fun _ => rfl) (h.changePort p (fun _ => rfl) hs)

theorem fetchDone (h : KeptAside P) {s : State} (p : Port) (hs : P s) : P (s.fetchDone p) := by
  unfold State.fetchDone
  split
  · exact hs
  split
  · exact hs
  split
  · exact h.completeOp p _ _ (h.endHold _ _ (h.endFetch _ _ hs))
  · exact h.completeOp p _ _ (h.endFetch _ _ hs)

/-- Every command but the end of a block program keeps the property. -/
theorem exec (h : KeptAside P) {i : Instr} {s t : State} (hc : ∀ p, i ≠ .programCompletion p) (hf : ∀ p, i ≠ .programFault p)
    (ht : Machine.exec i s = .next t) (hs : P s) : P t := by
  cases i with
  | deviceReset cause sa sb sc => exact h.finish ht (h.restart s _ _ _ _ hs)
  | transaction p rx x => exact h.finish ht (h.endSpan p _ (fun _ hs => h.takeBytes p _ hs) hs)
  | portResetLine p =>
    refine h.finish ht ?_
    split
    · exact h.changePort p (fun _ => rfl) hs
    · exact h.change p _ _ .portReset (h.changePort p (fun _ => rfl) hs)
  | programCompletion p => exact absurd rfl (hc p)
  | programFault p => exact absurd rfl (hf p)
  | eraseStart => exact h.event (fun s => s.setTakeMem s.takeMem.eraseStart) (h.eraseStart s) ht hs
  | eraseCompletion => exact h.event (fun s => s.setTakeMem s.takeMem.eraseDone) (h.eraseDone s) ht hs
  | eraseFault => exact h.event (fun s => s.setTakeMem s.takeMem.eraseFailed) (h.eraseFailed s) ht hs
  | fetchCompletion p => exact h.event (fun s => s.fetchDone p) (h.fetchDone p) ht hs
  | dispatch => exact h.event (State.dispatchOne) (h.dispatch s) ht hs
  | wheelSlot f =>
    simp only [Machine.exec, execWheelSlot] at ht
    split at ht
    · exact h.finish ht hs
    · split at ht
      · cases ht
      · next hg => exact h.finish ht (h.advance _ (h.slot _ _ _ hg hs))
  | holdClockStep => exact h.event (fun s => { s with holdTable := s.holdTable.clockStep }) (h.clock s) ht hs
  | holdExpiry => exact h.event (State.expireHold) (h.expire s) ht hs
  | resetPinAsserted cause => exact h.finish ht (h.resetHeld _ _ (h.abandon s hs))
  | portResetLineRelease p => exact h.finish ht (h.changePort p (fun _ => rfl) hs)
  | transactionBegin p => exact h.finish ht (h.changePort p (fun _ => rfl) hs)
  | _ => exact h.request ht hs

end KeptAside

namespace Kept

variable {P : State → Prop}

theorem programDone (h : Kept P) {s : State} (p : Port) (hs : P s) : P (s.programDone p) := by
  unfold State.programDone
  split
  · exact hs
  split
  · exact hs
  split
  · exact hs
  · next ht => exact h.completeOp p _ _ (h.blockDone s _ _ _ _ ht hs)

theorem programFailed (h : Kept P) {s : State} (p : Port) (hs : P s) : P (s.programFailed p) := by
  unfold State.programFailed
  split
  · exact hs
  split
  · exact hs
  split
  · exact hs
  · next ht =>
    split
    · exact hs
    · next hg => exact h.completeOp p _ _ (h.blockFailed s _ _ _ _ ht hg hs)

/-- Every command keeps the property. -/
theorem exec (h : Kept P) {i : Instr} {s t : State} (ht : Machine.exec i s = .next t) (hs : P s) : P t := by
  by_cases hc : ∃ p, i = .programCompletion p
  · obtain ⟨p, rfl⟩ := hc
    exact h.event (fun s => s.programDone p) (h.programDone p) ht hs
  by_cases hf : ∃ p, i = .programFault p
  · obtain ⟨p, rfl⟩ := hf
    exact h.event (fun s => s.programFailed p) (h.programFailed p) ht hs
  · exact h.toKeptAside.exec (fun p hp => hc ⟨p, hp⟩) (fun p hp => hf ⟨p, hp⟩) ht hs

/-- Every step keeps the property. -/
theorem step (h : Kept P) {s t : State} (ht : Machine.step s = .next t) (hs : P s) : P t := by
  unfold Machine.step at ht
  split at ht
  · cases ht; exact hs
  · exact h.exec ht (h.pending _ _ hs)

end Kept

end Sys2Proof.Machine
end

