-- ==== Sys2Proof/Laws/Memory.lean ====
section
/-! SUPPORT. The memories: every operation keeps the canonical form, and what a read gives after a write. -/

namespace Sys2Proof.Machine

/-- Every address of the memory is above `k`. -/
def Memory.above (k : Nat) (m : Memory) : Prop := ∀ c ∈ m, k < c.1

theorem Memory.wf_cons {a : Nat} {b : Byte} {m : Memory} (h : Memory.wf ((a, b) :: m) = true) :
    b ≠ 0 ∧ Memory.wf m = true ∧ Memory.above a m := by
  induction m generalizing a b with
  | nil => exact ⟨by simpa [Memory.wf] using h, rfl, fun c hc => by cases hc⟩
  | cons c m ih =>
    obtain ⟨a', b'⟩ := c
    simp only [Memory.wf, Bool.and_eq_true, decide_eq_true_eq] at h
    refine ⟨h.1.1, h.2, fun c hc => ?_⟩
    rcases List.mem_cons.1 hc with rfl | hc
    · exact h.1.2
    · exact lt_trans h.1.2 ((ih h.2).2.2 c hc)

theorem Memory.wf_of_above {a : Nat} {b : Byte} {m : Memory} (hb : b ≠ 0) (h : Memory.wf m = true)
    (ha : Memory.above a m) : Memory.wf ((a, b) :: m) = true := by
  cases m with
  | nil => simpa [Memory.wf] using hb
  | cons c m =>
    obtain ⟨a', b'⟩ := c
    simp only [Memory.wf, Bool.and_eq_true, decide_eq_true_eq]
    exact ⟨⟨hb, ha (a', b') (List.mem_cons_self ..)⟩, h⟩

theorem Memory.above_write {j k : Nat} {v : Byte} {m : Memory} (h : Memory.above j m) (hk : j < k) :
    Memory.above j (Memory.write m k v) := by
  induction m with
  | nil =>
    intro c hc
    unfold Memory.write at hc
    split at hc
    · cases hc
    · rw [List.mem_singleton.1 hc]; exact hk
  | cons c m ih =>
    obtain ⟨a, b⟩ := c
    have hm : Memory.above j m := fun c hc => h c (List.mem_cons_of_mem _ hc)
    have ha : j < a := h (a, b) (List.mem_cons_self ..)
    intro c hc
    unfold Memory.write at hc
    split at hc
    · split at hc
      · exact h c hc
      · rcases List.mem_cons.1 hc with rfl | hc
        · exact hk
        · exact h c hc
    · split at hc
      · split at hc
        · exact hm c hc
        · rcases List.mem_cons.1 hc with rfl | hc
          · exact hk
          · exact hm c hc
      · rcases List.mem_cons.1 hc with rfl | hc
        · exact ha
        · exact ih hm c hc

/-- A store of one byte keeps the canonical form. -/
theorem Memory.wf_write {m : Memory} (k : Nat) (v : Byte) (h : Memory.wf m = true) :
    Memory.wf (Memory.write m k v) = true := by
  induction m with
  | nil =>
    unfold Memory.write
    split
    · rfl
    · next hv => simpa [Memory.wf] using hv
  | cons c m ih =>
    obtain ⟨a, b⟩ := c
    obtain ⟨hb, hm, ha⟩ := Memory.wf_cons h
    unfold Memory.write
    split
    · next hk =>
      split
      · exact h
      · next hv =>
        refine Memory.wf_of_above hv h (fun c hc => ?_)
        rcases List.mem_cons.1 hc with rfl | hc
        · exact hk
        · exact lt_trans hk (ha c hc)
    · split
      · next hak =>
        split
        · exact hm
        · next hv => exact Memory.wf_of_above hv hm (hak ▸ ha)
      · next h1 h2 => exact Memory.wf_of_above hb (ih hm) (Memory.above_write ha (by omega))

theorem Memory.wf_writeBytes {m : Memory} (k : Nat) (bs : List Byte) (h : Memory.wf m = true) :
    Memory.wf (Memory.writeBytes m k bs) = true := by
  induction bs generalizing m k with
  | nil => exact h
  | cons b bs ih => exact ih _ (Memory.wf_write _ _ h)

theorem Memory.wf_filter {m : Memory} (f : Host.Cell → Bool) (h : Memory.wf m = true) :
    Memory.wf (m.filter f) = true := by
  induction m with
  | nil => rfl
  | cons c m ih =>
    obtain ⟨a, b⟩ := c
    obtain ⟨hb, hm, ha⟩ := Memory.wf_cons h
    rw [List.filter_cons]
    split
    · exact Memory.wf_of_above hb (ih hm) (fun c hc => ha c (List.mem_filter.1 hc).1)
    · exact ih hm

/-- Taking addresses off the list keeps the canonical form. -/
theorem Memory.wf_clear {m : Memory} (k n : Nat) (h : Memory.wf m = true) : Memory.wf (Memory.clear m k n) = true :=
  Memory.wf_filter _ h

/-- A store of image bytes keeps the canonical form. -/
theorem wf_writeImage {m : Memory} (pages : List Nat) (off : Nat) (bs : List Byte) (h : Memory.wf m = true) :
    Memory.wf (writeImage m pages off bs) = true := by
  induction bs generalizing m off with
  | nil => exact h
  | cons b bs ih =>
    refine ih _ ?_
    split
    · exact h
    · exact Memory.wf_write _ _ h

theorem Memory.wf_foldl {α : Type} {f : Memory → α → Memory} (hf : ∀ m x, Memory.wf m = true → Memory.wf (f m x) = true)
    (xs : List α) {m : Memory} (h : Memory.wf m = true) : Memory.wf (xs.foldl f m) = true := by
  induction xs generalizing m with
  | nil => exact h
  | cons x xs ih => exact ih (hf _ _ h)

/-! ### Reads after writes -/

theorem Memory.read_of_above {k : Nat} {m : Memory} (h : Memory.above k m) : Memory.read m k = 0 := by
  induction m with
  | nil => rfl
  | cons c m ih =>
    obtain ⟨a, b⟩ := c
    have : k < a := h (a, b) (List.mem_cons_self ..)
    simp only [Memory.read]
    rw [if_neg (by omega)]
    exact ih (fun c hc => h c (List.mem_cons_of_mem _ hc))

/-- A byte that was just stored is read back. -/
theorem Memory.read_write_same {m : Memory} (k : Nat) (v : Byte) (h : Memory.wf m = true) :
    Memory.read (Memory.write m k v) k = v := by
  induction m with
  | nil => unfold Memory.write; split <;> simp_all [Memory.read]
  | cons c m ih =>
    obtain ⟨a, b⟩ := c
    obtain ⟨hb, hm, ha⟩ := Memory.wf_cons h
    unfold Memory.write
    split
    · next hk =>
      split
      · next hv =>
        subst hv
        refine Memory.read_of_above (fun c hc => ?_)
        rcases List.mem_cons.1 hc with rfl | hc
        · exact hk
        · exact lt_trans hk (ha c hc)
      · simp [Memory.read]
    · split
      · next hak =>
        split
        · next hv => subst hv; exact Memory.read_of_above (hak ▸ ha)
        · simp [Memory.read]
      · next h1 h2 => simp only [Memory.read, if_neg h2]; exact ih hm

/-- A store leaves every other byte. -/
theorem Memory.read_write_other (m : Memory) {j k : Nat} (v : Byte) (h : j ≠ k) :
    Memory.read (Memory.write m k v) j = Memory.read m j := by
  induction m with
  | nil => unfold Memory.write; split <;> simp [Memory.read, Ne.symm h]
  | cons c m ih =>
    obtain ⟨a, b⟩ := c
    unfold Memory.write
    split
    · split
      · rfl
      · simp [Memory.read, Ne.symm h]
    · split
      · next hak =>
        subst hak
        split <;> simp [Memory.read, Ne.symm h]
      · simp [Memory.read, ih]

/-- A store of several bytes leaves every byte outside them. -/
theorem Memory.read_writeBytes_other (m : Memory) (bs : List Byte) {j k : Nat} (h : j < k ∨ k + bs.length ≤ j) :
    Memory.read (Memory.writeBytes m k bs) j = Memory.read m j := by
  induction bs generalizing m k with
  | nil => rfl
  | cons b bs ih =>
    simp only [List.length_cons] at h
    simp only [Memory.writeBytes]
    rw [ih _ (by omega), Memory.read_write_other _ _ (by omega)]

/-- Each of several stored bytes is read back. -/
theorem Memory.read_writeBytes {m : Memory} (bs : List Byte) (k i : Nat) (h : Memory.wf m = true) (hi : i < bs.length) :
    Memory.read (Memory.writeBytes m k bs) (k + i) = bs.getD i 0 := by
  induction bs generalizing m k i with
  | nil => simp at hi
  | cons b bs ih =>
    simp only [Memory.writeBytes]
    cases i with
    | zero => rw [Memory.read_writeBytes_other _ _ (by omega)]; simpa using Memory.read_write_same k b h
    | succ i =>
      rw [show k + (i + 1) = (k + 1) + i by omega, ih _ _ (Memory.wf_write _ _ h) (by simpa using hi)]
      simp

/-- Taking addresses off the list leaves every other byte. -/
theorem Memory.read_clear_other (m : Memory) {j k n : Nat} (h : j < k ∨ k + n ≤ j) :
    Memory.read (Memory.clear m k n) j = Memory.read m j := by
  induction m with
  | nil => rfl
  | cons c m ih =>
    obtain ⟨a, b⟩ := c
    unfold Memory.clear at ih ⊢
    rw [List.filter_cons]
    split
    · simp only [Memory.read, ih]
    · next hc =>
      simp only [decide_eq_true_eq, not_not] at hc
      simp only [Memory.read, ih]
      rw [if_neg (by omega)]

/-- An address taken off the list reads as an unlisted one. -/
theorem Memory.read_clear_same (m : Memory) {j k n : Nat} (h : k ≤ j ∧ j < k + n) :
    Memory.read (Memory.clear m k n) j = 0 := by
  induction m with
  | nil => rfl
  | cons c m ih =>
    obtain ⟨a, b⟩ := c
    unfold Memory.clear at ih ⊢
    rw [List.filter_cons]
    split
    · next hc =>
      simp only [decide_eq_true_eq] at hc
      simp only [Memory.read, ih]
      rw [if_neg (by rintro rfl; exact hc h)]
    · exact ih

end Sys2Proof.Machine
end

