-- ==== Sys2Proof/Laws/PerInstr.lean ====
section
/-! SUPPORT. The family OperandBytes: whatever request a command sends, the operands of its frame fill the operand length that the
frame's header gives. -/

namespace Sys2Proof.Laws.OperandBytes

open Sys2Proof.Machine

/-- The operands of the command's request, if it is one, have the length that the header of its frame gives (R187). -/
def Statement (i : Instr) : Prop :=
  ∀ p tag r, i.request? = some (p, tag, r) → (operandBytes r).length = operandLength r

/-- A command that is no request. -/
theorem no_request {i : Instr} (h : i.request? = none) : Statement i := by
  intro p tag r hr
  rw [h] at hr
  cases hr

/-- A command that sends a request whose operands have their length. -/
theorem of_request {i : Instr} {p : Port} {tag : Byte} {r : Request} (h : i.request? = some (p, tag, r))
    (hl : (operandBytes r).length = operandLength r) : Statement i := by
  intro p' tag' r' hr
  rw [h] at hr
  cases hr
  exact hl

theorem deviceReset (cause : ResetCause) (strapsA strapsB strapsC : Straps) : Statement (.deviceReset cause strapsA strapsB strapsC) := no_request rfl

theorem transaction (p : Port) (rx : List Byte) (extraBits : Nat) : Statement (.transaction p rx extraBits) := no_request rfl

theorem portResetLine (p : Port) : Statement (.portResetLine p) := no_request rfl

theorem openTake (p : Port) (tag : Byte) (th : Nat) :
    Statement (.openTake p tag th) := of_request rfl (by simp [operandBytes, operandLength])

theorem writeBlock (p : Port) (tag : Byte) (th take block : Nat) (data : List Byte) (crc : BitVec 16) :
    Statement (.writeBlock p tag th take block data crc) := of_request rfl (by simp [operandBytes, operandLength]; omega)

theorem closeTake (p : Port) (tag : Byte) (th take tail : Nat) :
    Statement (.closeTake p tag th take tail) := of_request rfl (by simp [operandBytes, operandLength])

theorem discardFirst (p : Port) (tag : Byte) (th take index : Nat) :
    Statement (.discardFirst p tag th take index) := of_request rfl (by simp [operandBytes, operandLength])

theorem discardLast (p : Port) (tag : Byte) (th take index : Nat) :
    Statement (.discardLast p tag th take index) := of_request rfl (by simp [operandBytes, operandLength])

theorem discardCommit (p : Port) (tag : Byte) (th : Nat) :
    Statement (.discardCommit p tag th) := of_request rfl (by simp [operandBytes, operandLength])

theorem registerTitle (p : Port) (tag : Byte) (catalogue : Nat) :
    Statement (.registerTitle p tag catalogue) := of_request rfl (by simp [operandBytes, operandLength])

theorem setTitleParams (p : Port) (tag : Byte) (th : Nat) (mask : Byte) (values : Loudness) :
    Statement (.setTitleParams p tag th mask values) := of_request rfl (by simp [operandBytes, operandLength])

theorem setProfile (p : Port) (tag : Byte) (th index : Nat) (profile : Profile) :
    Statement (.setProfile p tag th index profile) := of_request rfl (by simp [operandBytes, operandLength])

theorem setProfileCount (p : Port) (tag : Byte) (th count : Nat) :
    Statement (.setProfileCount p tag th count) := of_request rfl (by simp [operandBytes, operandLength])

theorem setRoomTone (p : Port) (tag : Byte) (th take start length : Nat) :
    Statement (.setRoomTone p tag th take start length) := of_request rfl (by simp [operandBytes, operandLength])

theorem clearRoomTone (p : Port) (tag : Byte) (th : Nat) :
    Statement (.clearRoomTone p tag th) := of_request rfl (by simp [operandBytes, operandLength])

theorem holdTitle (p : Port) (tag : Byte) (th : Nat) :
    Statement (.holdTitle p tag th) := of_request rfl (by simp [operandBytes, operandLength])

theorem releaseTitle (p : Port) (tag : Byte) (th : Nat) :
    Statement (.releaseTitle p tag th) := of_request rfl (by simp [operandBytes, operandLength])

theorem finalizeTitle (p : Port) (tag : Byte) (th : Nat) :
    Statement (.finalizeTitle p tag th) := of_request rfl (by simp [operandBytes, operandLength])

theorem retireTitle (p : Port) (tag : Byte) (th : Nat) :
    Statement (.retireTitle p tag th) := of_request rfl (by simp [operandBytes, operandLength])

theorem defineChapter (p : Port) (tag : Byte) (th chapter : Nat) :
    Statement (.defineChapter p tag th chapter) := of_request rfl (by simp [operandBytes, operandLength])

theorem deleteChapter (p : Port) (tag : Byte) (th chapter : Nat) :
    Statement (.deleteChapter p tag th chapter) := of_request rfl (by simp [operandBytes, operandLength])

theorem setChapterPads (p : Port) (tag : Byte) (th chapter head tail : Nat) :
    Statement (.setChapterPads p tag th chapter head tail) := of_request rfl (by simp [operandBytes, operandLength])

theorem insertSegment (p : Port) (tag : Byte) (th chapter position : Nat) (segment : Segment) :
    Statement (.insertSegment p tag th chapter position segment) := of_request rfl (by simp [operandBytes, operandLength])

theorem replaceSegment (p : Port) (tag : Byte) (th chapter position : Nat) (segment : Segment) :
    Statement (.replaceSegment p tag th chapter position segment) := of_request rfl (by simp [operandBytes, operandLength])

theorem removeSegment (p : Port) (tag : Byte) (th chapter position : Nat) :
    Statement (.removeSegment p tag th chapter position) := of_request rfl (by simp [operandBytes, operandLength])

theorem queueRender (p : Port) (tag : Byte) (th chapter priority : Nat) :
    Statement (.queueRender p tag th chapter priority) := of_request rfl (by simp [operandBytes, operandLength])

theorem cancelRender (p : Port) (tag : Byte) (th chapter : Nat) :
    Statement (.cancelRender p tag th chapter) := of_request rfl (by simp [operandBytes, operandLength])

theorem setWheel (p : Port) (tag : Byte) (e0 e1 e2 e3 : Nat) :
    Statement (.setWheel p tag e0 e1 e2 e3) := of_request rfl (by simp [operandBytes, operandLength])

theorem setLanes (p : Port) (tag : Byte) (lanes : Byte) :
    Statement (.setLanes p tag lanes) := of_request rfl (by simp [operandBytes, operandLength])

theorem setHoldLimit (p : Port) (tag : Byte) (seconds : Int) :
    Statement (.setHoldLimit p tag seconds) := of_request rfl (by simp [operandBytes, operandLength])

theorem openRead (p : Port) (tag : Byte) (th chapter rendition : Nat) :
    Statement (.openRead p tag th chapter rendition) := of_request rfl (by simp [operandBytes, operandLength])

theorem readRange (p : Port) (tag : Byte) (th slot generation offset length : Nat) :
    Statement (.readRange p tag th slot generation offset length) := of_request rfl (by simp [operandBytes, operandLength])

theorem closeRead (p : Port) (tag : Byte) (th slot generation : Nat) :
    Statement (.closeRead p tag th slot generation) := of_request rfl (by simp [operandBytes, operandLength])

theorem titleInfo (p : Port) (tag : Byte) (th : Nat) :
    Statement (.titleInfo p tag th) := of_request rfl (by simp [operandBytes, operandLength])

theorem chapterInfo (p : Port) (tag : Byte) (th chapter : Nat) :
    Statement (.chapterInfo p tag th chapter) := of_request rfl (by simp [operandBytes, operandLength])

theorem takeInfo (p : Port) (tag : Byte) (th take first : Nat) :
    Statement (.takeInfo p tag th take first) := of_request rfl (by simp [operandBytes, operandLength])

theorem laneInfo (p : Port) (tag : Byte) :
    Statement (.laneInfo p tag) := of_request rfl (by simp [operandBytes, operandLength])

theorem popNotice (p : Port) (tag : Byte) (list : Nat) :
    Statement (.popNotice p tag list) := of_request rfl (by simp [operandBytes, operandLength])

theorem setNoticeMask (p : Port) (tag : Byte) (lists : Byte) :
    Statement (.setNoticeMask p tag lists) := of_request rfl (by simp [operandBytes, operandLength])

theorem deviceStatus (p : Port) (tag : Byte) :
    Statement (.deviceStatus p tag) := of_request rfl (by simp [operandBytes, operandLength])

theorem portReset (p : Port) (tag : Byte) :
    Statement (.portReset p tag) := of_request rfl (by simp [operandBytes, operandLength])

theorem programCompletion (p : Port) : Statement (.programCompletion p) := no_request rfl

theorem programFault (p : Port) : Statement (.programFault p) := no_request rfl

theorem eraseStart : Statement .eraseStart := no_request rfl

theorem eraseCompletion : Statement .eraseCompletion := no_request rfl

theorem eraseFault : Statement .eraseFault := no_request rfl

theorem fetchCompletion (p : Port) : Statement (.fetchCompletion p) := no_request rfl

theorem dispatch : Statement .dispatch := no_request rfl

theorem wheelSlot (failRead : Option Nat) : Statement (.wheelSlot failRead) := no_request rfl

theorem holdClockStep : Statement .holdClockStep := no_request rfl

theorem holdExpiry : Statement .holdExpiry := no_request rfl

theorem resetPinAsserted (cause : ResetCause) : Statement (.resetPinAsserted cause) := no_request rfl

theorem portResetLineRelease (p : Port) : Statement (.portResetLineRelease p) := no_request rfl

theorem transactionBegin (p : Port) : Statement (.transactionBegin p) := no_request rfl

end Sys2Proof.Laws.OperandBytes
end

