-- ==== Sys2Proof/Laws/Requests.lean ====
section
/-! SUPPORT. What a request's command comes to at a port that listens: the one lemma that every statement about a request rests
on, and how the part as the request finds it differs from the part before; and what a reset makes of a transaction. -/

namespace Sys2Proof.Machine

/-- The part as a request of `k` operand bytes finds it: the span has ended, and any discard sequence of the port is given up. -/
def State.heard (s : State) (p : Port) (k : Nat) : State :=
  s.changePort p (fun q => { q with sequence := .none, span := none, sent := 0x10#8 :: List.replicate (6 + k) 0#8 })

/-- The part as a discard request of `k` operand bytes finds it: the span has ended, and the sequence stands. -/
def State.heardOn (s : State) (p : Port) (k : Nat) : State :=
  s.changePort p (fun q => { q with span := none, sent := 0x10#8 :: List.replicate (6 + k) 0#8 })

theorem State.spanOf_listens {s : State} {p : Port} (h : s.listens p) : s.spanOf p = .idle := by
  rcases h with h | ⟨h1, h2, h3, h4⟩
  · simp [State.spanOf, h]
  · simp [State.spanOf, State.spanNow, h1, h2, h3, h4]

theorem State.closeSpan_listens {s : State} {p : Port} (h : s.listens p) (k : Nat) : s.closeSpan p (7 + k) = s.heardOn p k := by
  unfold State.closeSpan State.heardOn
  rw [State.spanOf_listens h]
  have : ((s.port p).reply).elim True (fun _ => True) := by cases (s.port p).reply <;> trivial
  congr 1
  funext q
  have hs : sentBytes p q.cuts q.reply (7 + k) .idle = 0x10#8 :: List.replicate (6 + k) 0#8 := by
    simp [sentBytes, spanHead, spanTail, show 7 + k = (6 + k) + 1 by omega]
  rw [hs]
  rfl

/-- A request's command at a port that listens is the taking of that request. -/
theorem request_taken {s : State} {p : Port} {r : Request} (tag : Byte) (h : s.listens p) :
    request p tag r s = .next ((s.heardOn p (operandLength r)).takeRequest p tag r).driveAttn := by
  unfold request finish State.endSpan
  rw [State.spanOf_listens h, State.closeSpan_listens h]

/-- A request that passes the format and class checks and is no discard request. -/
theorem request_handled {s : State} {p : Port} {r : Request} (tag : Byte) (h : s.listens p)
    (ha : s.allows p (requestClass r)) (hf : formatOk r = true) (hd : isDiscard r = false) :
    request p tag r s =
      .next ((handle p r (s.heard p (operandLength r))).2.settle p tag r (s.marked p)
        (handle p r (s.heard p (operandLength r))).1).driveAttn := by
  have hi : (s.heardOn p (operandLength r)).interrupt p r = s.heard p (operandLength r) := by
    simp [State.interrupt, hd, State.heardOn, State.heard, State.setSequence, State.changePort, State.setPort, State.port]
  have hm : ((s.heardOn p (operandLength r)).port p).sequence.isSet = s.marked p := by
    simp [State.heardOn, State.marked]
  have hr : ((s.heardOn p (operandLength r)).port p).role = (s.port p).role := by simp [State.heardOn]
  unfold State.allows at ha
  rw [request_taken tag h]
  unfold State.takeRequest
  rw [hi, hm, hr, hf, ha]
  rfl

/-- The reply to such a request that completes on acceptance or is refused. -/
theorem request_reply {s t : State} {p : Port} {r : Request} {res : Result} (tag : Byte) (h : s.listens p)
    (ha : s.allows p (requestClass r)) (hf : formatOk r = true) (hd : isDiscard r = false)
    (hh : handle p r (s.heard p (operandLength r)) = (.reply res, t)) :
    request p tag r s = .next ((t.setSequence p .none).answer p tag (s.marked p) res).driveAttn := by
  rw [request_handled tag h ha hf hd, hh]
  simp [State.settle, hd]

/-- Such a request that starts an operation. -/
theorem request_started {s t : State} {p : Port} {r : Request} {w : Work} (tag : Byte) (h : s.listens p)
    (ha : s.allows p (requestClass r)) (hf : formatOk r = true) (hd : isDiscard r = false)
    (hh : handle p r (s.heard p (operandLength r)) = (.started w, t)) :
    request p tag r s = .next (t.execute p tag (s.marked p) w).driveAttn := by
  rw [request_handled tag h ha hf hd, hh]
  simp [State.settle]

/-- The reply put in the store, when the owner has left the ports as the request found them. -/
theorem answer_heard {s t : State} {p : Port} {k : Nat} (tag : Byte) (b : Bool) (res : Result)
    (hp : t.ports = s.ports) :
    ((({ t with ports := (s.heard p k).ports } : State).setSequence p .none).answer p tag b res).driveAttn =
      t.answered p tag k b res := by
  obtain ⟨_, _, _, _, _, _, _, _, tp, _, _, _⟩ := t
  simp only at hp
  subst hp
  simp [State.answered, State.replied, State.answer, State.setSequence, State.changePort, State.setPort, State.heard,
    State.driveAttn, State.port]

/-- A request whose owner replies `res` and leaves the ports as the request found them, `t` being what it leaves of the part. -/
theorem request_answered {s : State} {p : Port} (r : Request) (tag : Byte) (t : State) (res : Result) (h : s.listens p)
    (ha : s.allows p (requestClass r)) (hf : formatOk r = true) (hd : isDiscard r = false) (hp : t.ports = s.ports)
    (hh : handle p r (s.heard p (operandLength r)) =
      (.reply res, { t with ports := (s.heard p (operandLength r)).ports })) :
    request p tag r s = .next (t.answered p tag (operandLength r) (s.marked p) res) := by
  rw [request_reply tag h ha hf hd hh, answer_heard tag _ _ hp]

/-! ### Transactions that a reset cuts off -/

/-- R190: what an assertion of PRST makes of the transaction in progress. -/
theorem PortRecord.cutSpan_mute (p : Port) (q : PortRecord) : (q.cutSpan p Span.mute).span = spanUnderLine p q := by
  rcases q with ⟨_, _, _, _, _, _, _, _, _, _, sp, _, _⟩
  rcases sp with _ | sp
  · rfl
  · cases sp <;> rfl

/-- R191: what the beginning or the end of a device reset makes of the transaction in progress. -/
theorem PortRecord.cutSpan_lose (p : Port) (q : PortRecord) : (q.cutSpan p Span.lose).span = spanUnderReset p q := by
  rcases q with ⟨_, _, _, _, _, _, _, _, _, _, sp, _, _⟩
  rcases sp with _ | sp
  · rfl
  · cases sp <;> rfl

end Sys2Proof.Machine
end

