-- ==== Sys2Proof/Laws/Specs.lean ====
section
/-! SUPPORT. What the shared operations come to, once: a request's command, a refusal, an edit, the end of a hold, the serial of a
commit, and what the part as a request finds it still shows. -/

namespace Sys2Proof.Machine

/-! ### A request's command -/

/-- Every request's command is the one shared operation. -/
theorem exec_request {i : Instr} {p tag r} {s : State} (h : i.request? = some (p, tag, r)) : exec i s = request p tag r s := by
  cases i <;> simp only [Instr.request?, Option.some.injEq, Prod.mk.injEq, reduceCtorEq] at h <;>
    (obtain ⟨rfl, rfl, rfl⟩ := h; rfl)

/-- A refusal by the owner of any request, the discard requests among them. -/
theorem request_refused {s : State} {p : Port} {r : Request} (tag : Byte) (st : Status) (hst : st ≠ .ok) (h : s.listens p)
    (ha : s.allows p (requestClass r)) (hf : formatOk r = true)
    (hh : ∀ u : State, u.titles = s.titles → u.chapters = s.chapters → u.takeMem = s.takeMem → u.holdTable = s.holdTable → (∀ q, (u.port q).sequence = (s.port q).sequence ∨ isDiscard r = false)  →
       handle p r u = (.reply { status := st }, u)) :
    request p tag r s = .next (s.answered p tag (operandLength r) (s.marked p) { status := st }) := by
  by_cases hd : isDiscard r = true
  · have hi : (s.heardOn p (operandLength r)).interrupt p r = s.heardOn p (operandLength r) := by simp [State.interrupt, hd]
    have hm : ((s.heardOn p (operandLength r)).port p).sequence.isSet = s.marked p := by simp [State.heardOn, State.marked]
    have hr : ((s.heardOn p (operandLength r)).port p).role = (s.port p).role := by simp [State.heardOn]
    unfold State.allows at ha
    rw [request_taken tag h]
    unfold State.takeRequest
    rw [hi, hm, hr, hf, ha]
    rw [hh (s.heardOn p (operandLength r)) rfl rfl rfl rfl]
    · simp only [State.settle, hst, decide_false, Bool.and_false]
      simp [State.answered, State.replied, State.answer, State.setSequence, State.changePort, State.setPort, State.heardOn,
    State.driveAttn, State.port]
    · intro q; left
      by_cases hq : q = p
      · subst hq; simp [State.heardOn]
      · simp [State.heardOn, State.port_changePort_other _ _ hq]
  · have hd' : isDiscard r = false := by simpa using hd
    refine request_answered r tag s _ h ha hf hd' rfl ?_
    rw [hh (s.heard p (operandLength r)) rfl rfl rfl rfl (fun _ => .inr hd')]; rfl

/-- A request whose owner replies and changes the notice lists of every port in one way, `t` being what it leaves of the part. -/
theorem request_answered_notify {s : State} {p : Port} (r : Request) (tag : Byte) (t : State) (f : NoticeLists → NoticeLists) (res : Result) (h : s.listens p)
    (ha : s.allows p (requestClass r)) (hf : formatOk r = true) (hd : isDiscard r = false) (hp : t.ports = s.ports.notify f)
    (hh : handle p r (s.heard p (operandLength r)) =
      (.reply res, { t with ports := (s.heard p (operandLength r)).ports.notify f })) :
    request p tag r s = .next (t.answered p tag (operandLength r) (s.marked p) res) := by
  rw [request_reply tag h ha hf hd hh]
  obtain ⟨_, _, _, _, _, _, _, _, tp, _, _, _⟩ := t
  simp only at hp
  subst hp
  cases p <;> rfl


/-! ### What the part as a request finds it shows -/

@[simp] theorem State.heard_title (s : State) (p : Port) (k th : Nat) : (s.heard p k).title? th = s.title? th := rfl
@[simp] theorem State.heard_titleInLane (s : State) (p : Port) (k th : Nat) :
    (s.heard p k).titleInLane th = s.titleInLane th := rfl
@[simp] theorem State.heard_take (s : State) (p : Port) (k th take : Nat) : (s.heard p k).take? th take = s.take? th take := rfl
@[simp] theorem State.heard_takeMem (s : State) (p : Port) (k : Nat) : (s.heard p k).takeMem = s.takeMem := rfl
@[simp] theorem State.heard_chapter (s : State) (p : Port) (k : Nat) (c : ChapterId) :
    (s.heard p k).chapter? c = s.chapter? c := rfl

/-! ### Small facts -/

/-- The clamp of R6 and R155. -/
theorem clamp_eq (lo hi x : Int) (h : lo ≤ hi) : clampTo lo hi x = max lo (min hi x) := by
  unfold clampTo; split
  · omega
  · split <;> omega

/-- A take that a request resolves is a record of the take table. -/
theorem State.take_look {s : State} {th take : Nat} {t : Take} (h : s.take? th take = some t) :
    Tab.look s.takeMem.takes take = some t ∧ t.title = th ∧ 1 ≤ take ∧ take ≤ 1024 := by
  unfold State.take? at h
  split at h
  · next hr =>
    split at h
    · cases h
    · next t' ht' =>
      split at h
      · next htt => cases h; exact ⟨ht', htt, hr⟩
      · cases h
  · cases h

/-- R9, R24: the check of a span, in the rule's words. -/
theorem spanOwned_iff {m : TakeMemory} {take start length : Nat} {t : Take} (h : Tab.look m.takes take = some t) :
    m.spanOwned take start length = true ↔
      ∀ i, start / 262144 ≤ i → i ≤ (start + length - 1) / 262144 → ∃ g, t.groups[i]? = some (some g) := by
  unfold TakeMemory.spanOwned touchedIndexes
  rw [List.all_eq_true]
  constructor
  · intro hh i h1 h2
    have := hh i (by rw [List.mem_range'_1]; omega)
    simp only [TakeMemory.entry, h] at this
    cases hg : t.groups[i]? with
    | none => simp [hg] at this
    | some e => cases e with
      | none => simp [hg] at this
      | some g => exact ⟨g, rfl⟩
  · intro hh i hi
    rw [List.mem_range'_1] at hi
    obtain ⟨g, hg⟩ := hh i (by omega) (by omega)
    simp [TakeMemory.entry, h, hg]

/-- R9 step 3, in the rule's words. -/
theorem toneInRange_iff {s : State} {th take start length} {k : Take} (h : s.take? th take = some k) :
   toneInRange s.takeMem take start length k = true ↔ (4800 ≤ length ∧ length ≤ 96000 ∧ spanFits k start length) := by
  simp only [toneInRange, Bool.and_eq_true, decide_eq_true_eq, spanOwned_iff (State.take_look h).1, spanFits]; tauto

/-- R24 steps 3 to 6, in the rule's words. -/
theorem segmentInRange_iff {s : State} {g : Segment} {th} {t : Take} (h : s.take? th g.take = some t) :
   segmentInRange s.takeMem g t = true ↔ segmentFits t g := by
  simp only [segmentInRange, Bool.and_eq_true, decide_eq_true_eq, spanOwned_iff (State.take_look h).1, segmentFits, spanFits]; tauto

/-- The lane that holds a chapter holds its render. -/
theorem laneOf_spec {s : State} {c i r} (h : s.laneOf c = some i) (hr : (s.lanes.get i).render = some r) : r.chapter = c := by
  unfold State.laneOf at h
  have := List.find?_some h
  simp only [hr] at this
  simpa using this

/-- R152: some hold names the chapter. -/
theorem held_iff {s : State} {c} : s.held c = true ↔ ∃ e ∈ s.holdTable.holds, e.2.chapter = c := by
  simp [State.held]

/-- A record stored and dropped again. -/
theorem drop_put {α} (t : Tab α) (k : Nat) (v : α) : Tab.drop (Tab.put t k v) k = Tab.drop t k := by
  unfold Tab.drop
  induction t with
  | nil => simp [Tab.put]
  | cons a t ih =>
    obtain ⟨j, w⟩ := a
    simp only [Tab.put]
    split
    · simp
    · split
      · next h => simp [h]
      · simp only [List.filter_cons, ih]

/-! ### Edits, notices, commits and holds -/

/-- R29 to R31: a taken edit. -/
theorem edit_taken {s : State} {p tag} {r : Request} {c : ChapterId} {k' : Chapter} {m : TakeMemory} (h : s.listens p)
    (ha : s.allows p (requestClass r)) (hf : formatOk r = true) (hd : isDiscard r = false)
    (hh : handle p r (s.heard p (operandLength r)) = takeEdit c k' m (s.heard p (operandLength r))) :
    editTaken s p tag (operandLength r) c k' m (request p tag r s) := by
  constructor
  · intro hl
    refine request_answered r tag _ _ h ha hf hd rfl ?_
    rw [hh]
    unfold takeEdit accept
    have : ((s.heard p (operandLength r)).setTakeMem m).editChapter c k' = { s.editedTo c k' m with ports := (s.heard p (operandLength r)).ports } := by
      unfold State.editChapter
      simp only [hl, Bool.false_eq_true, if_false]
      unfold State.editedTo
      have : k'.state.afterEdit = stateAfterEdit k'.state := by cases k'.state <;> rfl
      rw [this]; rfl
    rw [this]
    simp only [editResults, editStale, State.chapter?, State.editedTo, Tab.look_put_same, editReply]
    rfl
  · intro i rr hl hi hr
    have hc := laneOf_spec hi hr
    refine request_answered_notify r tag _ (NoticeLists.postCrossings c (endedRestores rr.stage.encoders)) _ h ha hf hd ?_ ?_
    · simp only [State.abortedTo, State.dropRender, hc]; rfl
    rw [hh]
    unfold takeEdit accept
    have : ((s.heard p (operandLength r)).setTakeMem m).editChapter c k' = { s.abortedTo i rr c k' m with ports := (s.heard p (operandLength r)).ports.notify (NoticeLists.postCrossings c (endedRestores rr.stage.encoders)) } := by
      unfold State.editChapter
      simp only [hl, if_true]
      have e : k'.state.afterEdit = stateAfterEdit k'.state := by cases k'.state <;> rfl
      have hi' : (((s.heard p (operandLength r)).setTakeMem m).setChapter c { k' with stale := k'.stale || k'.published, state := k'.state.afterEdit }).laneOf c = some i := hi
      unfold State.endRender
      rw [hi']
      unfold State.endLane
      have hr' : ((((s.heard p (operandLength r)).setTakeMem m).setChapter c { k' with stale := k'.stale || k'.published, state := k'.state.afterEdit }).lanes.get i).render = some rr := hr
      simp only [hr']
      unfold State.abortedTo State.dropRender State.editedTo Render.plainEnd Lane.vacate RenditionMemory.free
      rw [e, hc]
      cases k'.priority <;> rfl
    rw [this]
    simp only [editResults, editStale, State.chapter?, State.abortedTo, State.dropRender, State.editedTo, Tab.look_put_same, editReply]
    rfl

/-- R174: entries that a chapter's crossings put into the lists are gone when the entries that name it are. -/
theorem removeNaming_post (c : ChapterId) (xs : List Crossing) (l : NoticeLists) :
    (l.postCrossings c xs).removeNaming (fun x => decide (x = c)) = l.removeNaming (fun x => decide (x = c)) := by
  have up1 : ∀ (α : Type) (same : α → Bool) (key : α → ChapterId) (e : α) (l : List α), key e = c → (∀ x, same x = true → key x = c) →
     (upsert same e l).filter (fun x => !decide (key x = c)) = l.filter (fun x => !decide (key x = c)) := by
    intro α same key e l he hs
    induction l with
    | nil => simp [upsert, he]
    | cons a l ih =>
      unfold upsert; split
      · next h => simp [he, hs a h]
      · simp [List.filter_cons, ih]
  induction xs generalizing l with
  | nil => rfl
  | cons x xs ih =>
    unfold NoticeLists.postCrossings at *
    rw [List.foldl_cons, ih]
    have ff : ∀ (α : Type) (key : α → ChapterId) (ren : α → Nat) (r : Nat) (l : List α), (l.filter (fun e => !decide (key e = c ∧ ren e = r))).filter (fun x => !decide (key x = c)) = l.filter (fun x => !decide (key x = c)) := by
      intro α key ren r l
      rw [List.filter_filter]; congr 1; funext a; by_cases h : key a = c <;> simp [h]
    cases x with
    | starve r n =>
      simp only [NoticeLists.postCrossing, NoticeLists.postStarve, NoticeLists.removeNaming]
      rw [ff, up1 StarvedEntry _ (fun e => e.chapter)] <;> (simp; try tauto)
    | restore r n en =>
      simp only [NoticeLists.postCrossing, NoticeLists.postRestore, NoticeLists.removeNaming]
      rw [ff, up1 RestoredEntry _ (fun e => e.chapter)] <;> (simp; try tauto)

/-- R148: what the writing of the serials comes to. -/
theorem writeSerial_stored {mem : Memory} (h : Memory.wf mem = true) (n : Nat) (es : List Encoder) :
    serialStored mem (es.foldl (fun m e => writeSerial m n e.pages) mem) es n := by
  have one : ∀ (m : Memory) (e : Encoder), writeSerial m n e.pages = match e.pages.head? with
      | none => m
      | some g => Memory.write (Memory.write m (g * 4096 + 16) (BitVec.ofNat 8 n)) (g * 4096 + 17) (BitVec.ofNat 8 (n / 256)) := by
    intro m e
    cases hp : e.pages with
    | nil => simp [writeSerial, writeImage, le]
    | cons g r => simp [writeSerial, writeImage, le]
  have wf1 : ∀ (m : Memory) (e : Encoder), Memory.wf m = true → Memory.wf (writeSerial m n e.pages) = true := fun m e hm => wf_writeImage _ _ _ hm
  -- reading a place after one write
  have other : ∀ (m : Memory) (e : Encoder) a, (∀ g, e.pages.head? = some g → a ≠ g * 4096 + 16 ∧ a ≠ g * 4096 + 17) → Memory.read (writeSerial m n e.pages) a = Memory.read m a := by
    intro m e a ha; rw [one]
    cases hp : e.pages.head? with
    | none => rfl
    | some g => have := ha g hp; simp only; rw [Memory.read_write_other _ _ this.2, Memory.read_write_other _ _ this.1]
  have same : ∀ (m : Memory) (e : Encoder) g, Memory.wf m = true → e.pages.head? = some g → Memory.read (writeSerial m n e.pages) (g * 4096 + 16) = BitVec.ofNat 8 n ∧ Memory.read (writeSerial m n e.pages) (g * 4096 + 17) = BitVec.ofNat 8 (n / 256) := by
    intro m e g hm hp; rw [one, hp]; simp only
    exact ⟨by rw [Memory.read_write_other _ _ (by omega), Memory.read_write_same _ _ hm], Memory.read_write_same _ _ (Memory.wf_write _ _ hm)⟩
  -- keeps if already
  have keep : ∀ (m : Memory) (e : Encoder) g, Memory.wf m = true → Memory.read m (g * 4096 + 16) = BitVec.ofNat 8 n ∧ Memory.read m (g * 4096 + 17) = BitVec.ofNat 8 (n / 256) → Memory.read (writeSerial m n e.pages) (g * 4096 + 16) = BitVec.ofNat 8 n ∧ Memory.read (writeSerial m n e.pages) (g * 4096 + 17) = BitVec.ofNat 8 (n / 256) := by
    intro m e g hm h
    by_cases hg : e.pages.head? = some g
    · exact same m e g hm hg
    · rw [other, other]; exact h
      all_goals
        intro g' hg'; constructor <;> (intro hh; have : g = g' := by omega
                                       subst this; exact hg hg')
  have gen : ∀ (es : List Encoder) (m : Memory), Memory.wf m = true → serialStored m (es.foldl (fun m e => writeSerial m n e.pages) m) es n ∧ (∀ g, Memory.read m (g * 4096 + 16) = BitVec.ofNat 8 n ∧ Memory.read m (g * 4096 + 17) = BitVec.ofNat 8 (n / 256) → Memory.read (es.foldl (fun m e => writeSerial m n e.pages) m) (g * 4096 + 16) = BitVec.ofNat 8 n ∧ Memory.read (es.foldl (fun m e => writeSerial m n e.pages) m) (g * 4096 + 17) = BitVec.ofNat 8 (n / 256)) := by
    intro es; induction es with
    | nil => intro m hm; exact ⟨⟨by simp, fun _ _ => rfl⟩, fun _ h => h⟩
    | cons e es ih =>
      intro m hm
      obtain ⟨⟨i1, i2⟩, i3⟩ := ih (writeSerial m n e.pages) (wf1 m e hm)
      refine ⟨⟨?_, ?_⟩, ?_⟩
      · intro x hx g hg
        rw [List.mem_cons] at hx
        rcases hx with rfl | hx
        · exact i3 g (same m x g hm hg)
        · exact i1 x hx g hg
      · intro a ha
        rw [List.foldl_cons, i2 a (fun x hx => ha x (List.mem_cons_of_mem _ hx)), other _ _ _ (ha e (List.mem_cons_self ..))]
      · intro g h; exact i3 g (keep m e g hm h)
  exact (gen es mem h).1

/-- R162: the end of a hold. -/
theorem endHold_spec {s : State} {slot : Nat} {h : Hold} (hh : Tab.look s.holdTable.holds slot = some h)
    (hm : Memory.wf s.rendMem.mem = true) : holdEnded s slot h (s.endHold slot) := by
  unfold State.endHold; simp only [hh]
  unfold State.releaseCommit
  constructor
  · rintro (h1 | h1)
    · rw [if_pos]; simpa [State.held] using h1
    · split
      · rfl
      · split
        · next k i e1 e2 =>
          rw [if_neg (h1 k e1)]
        · rfl
  · intro k i r h1 h2 h3 h4 h5
    refine ⟨_, ?_, writeSerial_stored hm _ _⟩
    rw [if_neg (by simpa [State.held] using h1)]
    have e2 : ({ s with holdTable := { s.holdTable with holds := Tab.drop s.holdTable.holds slot } } : State).laneOf h.chapter = some i := h4
    have e1 : ({ s with holdTable := { s.holdTable with holds := Tab.drop s.holdTable.holds slot } } : State).chapter? h.chapter = some k := h2
    have hc := laneOf_spec h4 h5
    simp only [e1, e2, h3, if_true]
    have e3 : ({ s with holdTable := { s.holdTable with holds := Tab.drop s.holdTable.holds slot } } : State).commitSerial h.chapter = (if k.serial = 0 ∨ k.serial = 65535 then 1 else k.serial + 1) := by
      unfold State.commitSerial; simp only [e1]; rfl
    have e3' := e3
    rw [← hc] at e3 e1
    unfold State.commit State.committedTo
    simp only [h5, RenditionMemory.publish, Lane.vacate, Render.committedEnd, RenderQueue.fewer, e3]
    have : Tab.change s.chapters r.chapter.key Chapter.committed = Tab.change s.chapters r.chapter.key (fun k' => { k' with serial := if k.serial = 0 ∨ k.serial = 65535 then 1 else k.serial + 1, published := true, stale := false, state := .done }) := by
      have e1' : Tab.look s.chapters r.chapter.key = some k := e1
      unfold Tab.change; simp only [e1']; rfl
    rw [this]
    rfl

/-- R162: what the end of a hold leaves of the hold table and of the form of rendition memory. -/
theorem endHold_holds {s : State} {slot : Nat} {h : Hold} (hh : Tab.look s.holdTable.holds slot = some h)
    (hm : Memory.wf s.rendMem.mem = true) :
    (s.endHold slot).holdTable = { s.holdTable with holds := Tab.drop s.holdTable.holds slot } ∧
      Memory.wf (s.endHold slot).rendMem.mem = true := by
  unfold State.endHold; simp only [hh]
  unfold State.releaseCommit
  split
  · exact ⟨rfl, hm⟩
  split
  · split
    · unfold State.commit
      split
      · exact ⟨rfl, hm⟩
      · refine ⟨rfl, ?_⟩
        exact Memory.wf_foldl (f := fun m (e : Encoder) => writeSerial m _ e.pages) (fun m x h => wf_writeImage _ _ _ h) _ hm
    · exact ⟨rfl, hm⟩
  · exact ⟨rfl, hm⟩

/-- R168: the ends of the holds of a list, one after the other. -/
theorem endHolds_spec {es : List (Nat × Hold)} : ∀ {s : State}, (es.map (fun e => e.1)).Nodup →
    (∀ e ∈ es, Tab.look s.holdTable.holds e.1 = some e.2) → Memory.wf s.rendMem.mem = true →
    holdsEnded s es ((es.map (fun e => e.1)).foldl State.endHold s) := by
  induction es with
  | nil => intro s _ _ _; rfl
  | cons e es ih =>
    intro s hn hl hm
    obtain ⟨h1, h2⟩ := endHold_holds (hl e (List.mem_cons_self ..)) hm
    rw [List.map_cons, List.nodup_cons] at hn
    refine ⟨s.endHold e.1, endHold_spec (hl e (List.mem_cons_self ..)) hm, ih hn.2 (fun x hx => ?_) h2⟩
    have hk : x.1 ≠ e.1 := fun hk => hn.1 (hk ▸ List.mem_map_of_mem (f := fun e : Nat × Hold => e.1) hx)
    rw [h1, Tab.look_drop_other _ hk, hl x (List.mem_cons_of_mem _ hx)]

/-- R189 steps 1 to 3: the reset of a port. -/
theorem resetPort_spec {s : State} (p : Port) (ht : Tab.wf s.holdTable.holds = true) (hm : Memory.wf s.rendMem.mem = true) :
    holdsEnded (s.changePort p (fun q => { q with
      lists := ⟨[], [], [], [], []⟩, mask := ⟨false, false, false, false, false⟩, sequence := .none })) (s.endsAtReset p)
      (s.resetPort p) := by
  have he : (s.changePort p (fun r => { r with lists := NoticeLists.empty, mask := NoticeMask.empty, sequence := .none })).endableSlots p =
      (s.endsAtReset p).map (fun e => e.1) := by
    simp only [State.endableSlots, State.holdsOf, State.endsAtReset, List.filter_filter]
    congr 1
    congr 1
    funext e
    exact Bool.and_comm ..
  unfold State.resetPort
  simp only [he]
  have hw : Tab.wf (s.endsAtReset p) = true := Tab.wf_filter _ ht
  refine endHolds_spec (Tab.keys_nodup hw) (fun e h => Tab.look_of_mem ht (List.mem_filter.1 h).1) hm

end Sys2Proof.Machine
end

