-- ==== Sys2Proof/Tests/Slice0.lean ====
section
/-! SUPPORT. The model's own tests. First a small part to test on; then the smoke tests of WellFormed; then values that the spec
works out (the expected result of each stands in the rule its docstring names); then single steps; and last, for every
statement with hypotheses, a part and operands that meet them, clause by clause. -/

namespace Sys2Proof.Tests

open Sys2Proof Sys2Proof.Machine

/-! ### A small part -/

/-- A title in a state, with the defaults of R1 and R7. -/
def title (st : TitleState) (catalogue : Nat) : Title := ⟨st, catalogue, defaultLoudness, none, [defaultProfile]⟩

/-- A segment of 4,800 samples from the start of take 1. -/
def seg : Segment := ⟨1, 0, 4800, 0, 0, 0⟩

/-- A chapter record in a state, with some segments. -/
def chapter (st : ChapterState) (segments : List Segment) : Chapter := ⟨st, segments, 24000, 96000, .normal, false, 0, false⟩

/-- A published chapter in a state. -/
def published (st : ChapterState) (serial : Nat) (stale : Bool) : Chapter :=
  ⟨st, [seg], 24000, 96000, .normal, true, serial, stale⟩

/-- A render of a chapter with these lengths, at a pass position in a stage. -/
def render (c : ChapterId) (head : Nat) (segments : List Segment) (pass : Nat) (stage : Stage) : Render :=
  ⟨c, .normal, ⟨defaultLoudness, [defaultProfile], none⟩, ⟨head, segments, 0⟩, pass, stage⟩

/-- A gain record with no gain. -/
def flat : GainRecord := ⟨-900, -900, 0, -900, 1048576, true, false, false, false⟩

/-- An encoder of rendition 0 with one page. -/
def encoder (credit : Nat) (starved : Bool) (pages : List Nat) : Encoder :=
  ⟨0, defaultProfile, credit, starved, 0, 0, 64, 0xFFFFFFFF#32, pages, none, []⟩

/-- An owned group of a take at an index, with a count. -/
def owned (take index refs : Nat) : Group := ⟨.owned, some take, some index, refs, false⟩

/-- Take memory with six groups. Take 1 is CLOSED with 96,256 samples, take 2 RECORDING with 256 blocks, take 3 RECORDING without
a block, and take 4 FAULTED with a hole and a group; group 4 waits clean and group 5 dirty. -/
def takes : TakeMemory :=
  { groups := [owned 1 0 1, owned 2 0 0, owned 3 0 0, owned 4 1 0, ⟨.clean, none, none, 0, false⟩, ⟨.dirty, none, none, 0, false⟩],
    clean := [4], dirty := [5], engine := none, bad := [],
    takes := [(1, ⟨1, .closed, 94, some 1024, [some 0], none⟩), (2, ⟨1, .recording, 256, none, [some 1], none⟩),
      (3, ⟨1, .recording, 0, none, [some 2], none⟩), (4, ⟨1, .faulted, 300, some 1024, [none, some 3], none⟩)],
    scrub := false, mem := [] }

/-- The published set of chapter 4 of title 1: one image of 100 bytes on page 7. -/
def set4 : PublishedSet := ⟨5, [⟨0, [7], 100⟩]⟩

/-- A port in the role FULL with nothing on hand. -/
def idle : PortRecord := PortRecord.atReset .full

/-- The part of the tests. Titles 1 and 2 are OPEN, 3 HELD and 4 FINAL. Title 1 has chapters 0 (DRAFT, empty), 1 (DRAFT), 2 (QUEUED),
4 (DONE, published), 5 (FAILED) and 6 (DRAFT, published); title 2 has chapter 0 in MEASURE in lane 0 and chapter 1 in ENCODE in
lane 1. Slot 1 holds chapter 4 for port A. -/
def part : State :=
  { titles := [(1, title .opened 7), (2, title .opened 8), (3, title .held 9), (4, title .final 10)],
    chapters := [(128, chapter .draft []), (129, chapter .draft [seg]), (130, chapter .queued [seg]), (132, published .done 5 false),
      (133, chapter .failed [seg]), (134, published .draft 6 true), (256, chapter .measuring [seg]), (257, chapter .encoding [seg])],
    takeMem := takes,
    queue := ⟨[], [⟨1, 2⟩], 3⟩,
    lanes := ⟨⟨true, some (render ⟨2, 0⟩ 1024 [] 0 (.measure ⟨0, none⟩ Meter.start)), none⟩,
      ⟨true, some (render ⟨2, 1⟩ 1024 [] 0 (.encode ⟨0, none⟩ flat 0 [encoder 680 false []])), none⟩,
      ⟨true, none, none⟩, ⟨false, none, none⟩⟩,
    wheel := ⟨⟨some 0, some 1, some 2, none⟩, none, 0⟩,
    rendMem := ⟨[8, 9], [(132, set4)], []⟩,
    holdTable := ⟨3 :: List.replicate 15 0, [(1, ⟨.a, ⟨1, 4⟩, 0, 5, 0, none⟩)], 10⟩,
    ports := ⟨idle, idle, idle⟩, cause := .powerOn, resetHeld := none, pending := [] }

/-- The part with port A changed. -/
def withA (f : PortRecord → PortRecord) : State := part.changePort .a f

theorem listens_of {s : State} {p : Port}
    (h : (s.port p).span = none ∧ (s.port p).state = .idle ∧ (s.port p).resetLine = false ∧ s.resetHeld = none) :
    s.listens p := .inr h

/-- Port A of the part takes every request. -/
theorem part_listens : part.listens .a ∧ ∀ c, part.allows .a c :=
  ⟨listens_of (by decide), fun c => by cases c <;> rfl⟩

/-! ### Well-formed commands -/

theorem test_illformed_take : Request.wellFormed (.openTake 256) = false ∧
    Request.wellFormed (.writeBlock 256 1 0 (List.replicate 3072 0) 0) = false ∧
    Request.wellFormed (.writeBlock 1 65536 0 (List.replicate 3072 0) 0) = false ∧
    Request.wellFormed (.writeBlock 1 1 4294967296 (List.replicate 3072 0) 0) = false ∧
    Request.wellFormed (.writeBlock 1 1 0 (List.replicate 3071 0) 0) = false ∧
    Request.wellFormed (.closeTake 256 1 1) = false ∧ Request.wellFormed (.closeTake 1 65536 1) = false ∧
    Request.wellFormed (.closeTake 1 1 65536) = false ∧ Request.wellFormed (.discardFirst 256 1 0) = false ∧
    Request.wellFormed (.discardFirst 1 65536 0) = false ∧ Request.wellFormed (.discardFirst 1 1 65536) = false ∧
    Request.wellFormed (.discardLast 256 1 0) = false ∧ Request.wellFormed (.discardLast 1 65536 0) = false ∧
    Request.wellFormed (.discardLast 1 1 65536) = false ∧ Request.wellFormed (.discardCommit 256) = false := by decide +kernel

theorem test_illformed_title : Request.wellFormed (.registerTitle 18446744073709551616) = false ∧
    Request.wellFormed (.setTitleParams 256 0 defaultLoudness) = false ∧
    Request.wellFormed (.setTitleParams 1 0 ⟨32768, 0, 0, 0, 0⟩) = false ∧
    Request.wellFormed (.setTitleParams 1 0 ⟨0, -32769, 0, 0, 0⟩) = false ∧
    Request.wellFormed (.setTitleParams 1 0 ⟨0, 0, 32768, 0, 0⟩) = false ∧
    Request.wellFormed (.setTitleParams 1 0 ⟨0, 0, 0, -32769, 0⟩) = false ∧
    Request.wellFormed (.setTitleParams 1 0 ⟨0, 0, 0, 0, 32768⟩) = false ∧
    Request.wellFormed (.setProfile 256 0 defaultProfile) = false ∧ Request.wellFormed (.setProfile 1 256 defaultProfile) = false ∧
    Request.wellFormed (.setProfile 1 0 ⟨256, 0, 0, 0, 0, 0⟩) = false ∧
    Request.wellFormed (.setProfile 1 0 ⟨0, 65536, 0, 0, 0, 0⟩) = false ∧
    Request.wellFormed (.setProfile 1 0 ⟨0, 0, 65536, 0, 0, 0⟩) = false ∧
    Request.wellFormed (.setProfile 1 0 ⟨0, 0, 0, 65536, 0, 0⟩) = false ∧
    Request.wellFormed (.setProfile 1 0 ⟨0, 0, 0, 0, 65536, 0⟩) = false ∧
    Request.wellFormed (.setProfile 1 0 ⟨0, 0, 0, 0, 0, 65536⟩) = false ∧
    Request.wellFormed (.setProfileCount 256 1) = false ∧ Request.wellFormed (.setProfileCount 1 256) = false ∧
    Request.wellFormed (.setRoomTone 256 1 0 0) = false ∧ Request.wellFormed (.setRoomTone 1 65536 0 0) = false ∧
    Request.wellFormed (.setRoomTone 1 1 4294967296 0) = false ∧ Request.wellFormed (.setRoomTone 1 1 0 4294967296) = false ∧
    Request.wellFormed (.clearRoomTone 256) = false ∧ Request.wellFormed (.holdTitle 256) = false ∧
    Request.wellFormed (.releaseTitle 256) = false ∧ Request.wellFormed (.finalizeTitle 256) = false ∧
    Request.wellFormed (.retireTitle 256) = false := by decide +kernel

theorem test_illformed_chapter : Request.wellFormed (.defineChapter 256 0) = false ∧ Request.wellFormed (.defineChapter 1 256) = false ∧
    Request.wellFormed (.deleteChapter 256 0) = false ∧ Request.wellFormed (.deleteChapter 1 256) = false ∧
    Request.wellFormed (.setChapterPads 256 0 0 0) = false ∧ Request.wellFormed (.setChapterPads 1 256 0 0) = false ∧
    Request.wellFormed (.setChapterPads 1 0 4294967296 0) = false ∧ Request.wellFormed (.setChapterPads 1 0 0 4294967296) = false ∧
    Request.wellFormed (.insertSegment 256 0 0 seg) = false ∧ Request.wellFormed (.insertSegment 1 256 0 seg) = false ∧
    Request.wellFormed (.insertSegment 1 0 256 seg) = false ∧
    Request.wellFormed (.insertSegment 1 0 0 ⟨65536, 0, 0, 0, 0, 0⟩) = false ∧
    Request.wellFormed (.insertSegment 1 0 0 ⟨0, 4294967296, 0, 0, 0, 0⟩) = false ∧
    Request.wellFormed (.insertSegment 1 0 0 ⟨0, 0, 4294967296, 0, 0, 0⟩) = false ∧
    Request.wellFormed (.insertSegment 1 0 0 ⟨0, 0, 0, 65536, 0, 0⟩) = false ∧
    Request.wellFormed (.insertSegment 1 0 0 ⟨0, 0, 0, 0, 65536, 0⟩) = false ∧
    Request.wellFormed (.insertSegment 1 0 0 ⟨0, 0, 0, 0, 0, 4294967296⟩) = false ∧
    Request.wellFormed (.replaceSegment 256 0 0 seg) = false ∧ Request.wellFormed (.replaceSegment 1 256 0 seg) = false ∧
    Request.wellFormed (.replaceSegment 1 0 256 seg) = false ∧
    Request.wellFormed (.replaceSegment 1 0 0 ⟨65536, 0, 0, 0, 0, 0⟩) = false ∧
    Request.wellFormed (.removeSegment 256 0 0) = false ∧ Request.wellFormed (.removeSegment 1 256 0) = false ∧
    Request.wellFormed (.removeSegment 1 0 256) = false := by decide +kernel

theorem test_illformed_other : Request.wellFormed (.queueRender 256 0 0) = false ∧ Request.wellFormed (.queueRender 1 256 0) = false ∧
    Request.wellFormed (.queueRender 1 0 256) = false ∧ Request.wellFormed (.cancelRender 256 0) = false ∧
    Request.wellFormed (.cancelRender 1 256) = false ∧ Request.wellFormed (.setWheel 256 0 0 0) = false ∧
    Request.wellFormed (.setWheel 0 256 0 0) = false ∧ Request.wellFormed (.setWheel 0 0 256 0) = false ∧
    Request.wellFormed (.setWheel 0 0 0 256) = false ∧ Request.wellFormed (.setHoldLimit 32768) = false ∧
    Request.wellFormed (.openRead 256 0 0) = false ∧ Request.wellFormed (.openRead 1 256 0) = false ∧
    Request.wellFormed (.openRead 1 0 256) = false ∧ Request.wellFormed (.readRange 256 1 0 0 1) = false ∧
    Request.wellFormed (.readRange 1 256 0 0 1) = false ∧ Request.wellFormed (.readRange 1 1 256 0 1) = false ∧
    Request.wellFormed (.readRange 1 1 0 4294967296 1) = false ∧ Request.wellFormed (.readRange 1 1 0 0 65536) = false ∧
    Request.wellFormed (.closeRead 256 1 0) = false ∧ Request.wellFormed (.closeRead 1 256 0) = false ∧
    Request.wellFormed (.closeRead 1 1 256) = false ∧ Request.wellFormed (.titleInfo 256) = false ∧
    Request.wellFormed (.chapterInfo 256 0) = false ∧ Request.wellFormed (.chapterInfo 1 256) = false ∧
    Request.wellFormed (.takeInfo 256 1 0) = false ∧ Request.wellFormed (.takeInfo 1 65536 0) = false ∧
    Request.wellFormed (.takeInfo 1 1 65536) = false ∧ Request.wellFormed (.popNotice 256) = false ∧
    Instr.wellFormed (.transaction .a [] 8) = false ∧ Instr.wellFormed (.openTake .a 0 256) = false := by decide +kernel

theorem test_wellformed : Request.wellFormed (.readRange 255 255 255 4294967295 65535) = true ∧
    Request.wellFormed (.setHoldLimit (-32768)) = true ∧ Request.wellFormed (.insertSegment 1 0 0 seg) = true ∧
    Instr.wellFormed (.transaction .a [] 7) = true := by decide +kernel

/-! ### Values that the spec works out -/

/-- R53. -/
theorem test_crc16 : crc16 [0x31, 0x32, 0x33, 0x34, 0x35, 0x36, 0x37, 0x38, 0x39] = 0x31C3#16 := by decide +kernel

/-- R146: the check value of the CRC-32, after its final xor. -/
theorem test_crc32 :
    crc32Bytes 0xFFFFFFFF#32 [0x31, 0x32, 0x33, 0x34, 0x35, 0x36, 0x37, 0x38, 0x39] ^^^ 0xFFFFFFFF#32 = 0xCBF43926#32 := by
  decide +kernel

/-- R113, the table of level conversions. -/
theorem test_energyLevel : energyLevel 0 = -900 ∧ energyLevel 71183 = -900 ∧ energyLevel 71184 = -899 ∧
    energyLevel 35184372088832 = -30 ∧ energyLevel 70368744177664 = 0 := by decide +kernel

/-- R114, the table of level conversions. -/
theorem test_peakLevel : peakLevel 0 = -900 ∧ peakLevel 266 = -900 ∧ peakLevel 267 = -899 ∧ peakLevel 4194304 = -60 ∧
    peakLevel 8340000 = -1 ∧ peakLevel 8388607 = 0 ∧ peakLevel 8388608 = 0 := by decide +kernel

/-- R125, its table. -/
theorem test_gainFactor : gainFactor (-200) = 104858 ∧ gainFactor (-60) = 525533 ∧ gainFactor 0 = 1048576 ∧
    gainFactor 1 = 1060718 ∧ gainFactor 22 = 1350828 ∧ gainFactor 60 = 2092184 ∧ gainFactor 240 = 16618810 := by decide +kernel

/-- R22, its example. -/
theorem test_length : timelineLength 24000 [⟨1, 0, 500000, 0, 0, 48000⟩] 96000 = 620000 ∧
    timelineLength 24000 [⟨1, 0, 500000, 0, 0, 48000⟩, ⟨1, 0, 300000, 0, 0, 0⟩] 96000 = 968000 := by decide

/-- R100: the lowest weight of the longest fade, and the highest. -/
theorem test_fadeWeight : fadeWeight 0 48000 = 1 ∧ fadeWeight 47999 48000 = 65534 ∧ weigh (some 65535) (-1) = -1 := by decide

/-- R133, R134 with the default profile: full credit grants Bpeak, and a SILENT frame takes Bmin. -/
theorem test_grant : (encoder 680 false []).grant true = 340 ∧ (encoder 680 false []).nextCredit true = 510 ∧
    (encoder 100 false []).grant true = 270 ∧ (encoder 100 false []).nextCredit true = 0 ∧
    (encoder 680 false []).grant false = 12 ∧ (encoder 680 false []).nextCredit false = 680 := by decide

/-! ### Frames, written out from R187 -/

/-- OPEN-TAKE of title 1: class 0x01, code 0x01, no operand. -/
theorem test_frame_openTake : receive [0x01, 0x01, 0x55, 0x01, 0x00, 0x00] = .request 0x55 (.openTake 1) := by decide +kernel

/-- CLOSE-TAKE of take 0x0102 with tail 0x0304: class 0x01, code 0x03, numbers least significant byte first. -/
theorem test_frame_closeTake : receive [0x01, 0x03, 0x00, 0x02, 0x04, 0x00, 0x02, 0x01, 0x04, 0x03] =
    .request 0 (.closeTake 2 0x0102 0x0304) := by decide +kernel

/-- SET-CHAPTER-PADS: class 0x02, code 0x0D, chapter 3, pads 24,000 and 96,000. -/
theorem test_frame_setChapterPads :
    receive [0x02, 0x0D, 0x07, 0x01, 0x09, 0x00, 0x03, 0xC0, 0x5D, 0x00, 0x00, 0x00, 0x77, 0x01, 0x00] =
      .request 7 (.setChapterPads 1 3 24000 96000) := by decide +kernel

/-- SET-HOLD-LIMIT: class 0x03, code 0x05, a signed number of two bytes. -/
theorem test_frame_setHoldLimit : receive [0x03, 0x05, 0x00, 0x00, 0x02, 0x00, 0xFE, 0xFF] = .request 0 (.setHoldLimit (-2)) := by
  decide +kernel

/-- READ-RANGE: class 0x04, code 0x02, slot, generation, four bytes of offset and two of length. -/
theorem test_frame_readRange :
    receive [0x04, 0x02, 0x00, 0x01, 0x08, 0x00, 0x10, 0x20, 0x01, 0x02, 0x03, 0x04, 0x00, 0x10] =
      .request 0 (.readRange 1 0x10 0x20 0x04030201 4096) := by decide +kernel

/-- POP-NOTICE: class 0x05, code 0x05. A frame of another operand length is MALFORMED, and one cut short is none. -/
theorem test_frame_popNotice : receive [0x05, 0x05, 0x09, 0x00, 0x01, 0x00, 0x04] = .request 9 (.popNotice 4) ∧
    receive [0x05, 0x05, 0x09, 0x00, 0x01, 0x00, 0x04, 0x00] = .malformed 9 ∧
    receive [0x05, 0x05, 0x09, 0x00, 0x00, 0x00] = .malformed 9 ∧ receive [0x05, 0x05, 0x09, 0x00, 0x01, 0x00] = .discarded := by
  decide +kernel

/-- The table gives no row any bits, so no word spells a command. -/
theorem test_decodeTableWord : decodeTableWord 0 0 = none ∧ decodeTableWord 32 1 = none := by decide

/-! ### Single steps -/

/-- The state after a command; the part itself where the command stops. -/
def after (i : Instr) (s : State) : State :=
  match exec i s with
  | .next t => t
  | .fault _ => s
  | .refused _ => s

/-- The step takes the front command and leaves the rest. -/
theorem test_step_queue :
    (match step { part with pending := [.dispatch, .eraseStart] } with
      | .next t => t.pending
      | .fault _ => []
      | .refused _ => []) = [Instr.eraseStart] := by decide +kernel

/-- R3: the same catalogue number again gives the same handle, EXISTING. -/
theorem test_registerTitle : (((after (.registerTitle .a 1 8) part).port .a).reply).map (fun r => (r.status, r.flags.existing, r.results)) =
    some (.ok, true, [2, 1]) := by decide +kernel

/-- R6: a target out of range is clamped to −300, and CLAMPED is set. -/
theorem test_setTitleParams : ((after (.setTitleParams .a 0 1 1 ⟨-301, 0, 0, 0, 0⟩) part).title? 1).map (fun t => t.loudness) =
    some ⟨-300, 20, -30, -600, -550⟩ := by decide +kernel

/-- R25: a segment inserted at the end raises the count of its group. -/
theorem test_insertSegment : ((after (.insertSegment .a 0 1 1 1 seg) part).takeMem.group 0).refs = 2 ∧
    ((after (.insertSegment .a 0 1 1 1 seg) part).chapter? ⟨1, 1⟩).map (fun k => k.segments) = some [seg, seg] := by decide +kernel

/-- R54: block 256 draws the head of the clean pool, at index 1 of the list. -/
theorem test_startBlock : (takes.startBlock 2 ⟨1, .recording, 256, none, [some 1], none⟩ 256).clean = [] ∧
    Tab.look (takes.startBlock 2 ⟨1, .recording, 256, none, [some 1], none⟩ 256).takes 2 =
      some ⟨1, .recording, 256, none, [some 1, some 4], some 256⟩ := by decide +kernel

/-- R82: the queued chapter goes to lane 2, the lowest that is dispatchable. -/
theorem test_dispatch : (after .dispatch part).queue = ⟨[], [], 3⟩ ∧
    ((after .dispatch part).lanes.e2.render).map (fun r => r.chapter) = some ⟨1, 2⟩ := by decide +kernel

/-- R85, R90: the only block of a chapter of zeros ends the measure pass, SILENT with no gain, and the wheel moves on. -/
theorem test_wheelSlot : (after (.wheelSlot none) part).wheel.slot = 1 ∧
    (match (after (.wheelSlot none) part).lanes.e0.render with
      | some ⟨_, _, _, _, 0, .encode _ g _ _⟩ => g
      | _ => flat) = ⟨-900, -900, 0, -900, 1048576, true, false, false, false⟩ := by decide +kernel

/-- R163, R172: the hold that stands at 0 ends, and its owner gets the entry. -/
theorem test_holdExpiry : (after .holdExpiry part).holdTable.holds = [] ∧
    ((after .holdExpiry part).port .a).lists.expired = [⟨1, 3, ⟨1, 4⟩, 0⟩] ∧
    ((after .holdExpiry part).port .b).lists.expired = [] := by decide +kernel

/-- R67, R68: DISCARD-FIRST marks, and any other request gives the marks up with DISCARD_RESET. -/
theorem test_discardFirst : ((after (.discardFirst .a 0 1 4 1) part).port .a).sequence = .firstSet 4 1 ∧
    (((after (.laneInfo .a 0) (withA (fun q => { q with sequence := .firstSet 4 1 }))).port .a).reply).map
      (fun r => r.flags.discardReset) = some true := by decide +kernel

/-- R44: the engine takes the head of the dirty list. -/
theorem test_eraseStart : (after .eraseStart part).takeMem.engine = some 5 ∧ (after .eraseStart part).takeMem.dirty = [] := by
  decide +kernel

/-- R190: a transaction begun under the line stays so at a further assertion, and sends 0x00 to its end. -/
theorem test_portResetLine :
    ((after (.portResetLine .a) (withA (fun q => { q with resetLine := true, span := some .muted }))).port .a).span = some .muted ∧
    ((after (.transaction .a [1, 2, 3] 0) (withA (fun q => { q with span := some .muted }))).port .a).sent = [0, 0, 0] := by
  decide +kernel

/-- R190: a transaction that the line abandoned after two bytes sends 0x00 from then on, and its bytes are no request. -/
theorem test_abandoned :
    ((after (.openTake .a 3 1) (withA (fun q => { q with span := some (.abandoned [0x30, 0]) }))).port .a).sent =
      [0x30, 0, 0, 0, 0, 0, 0] ∧
    (after (.openTake .a 3 1) (withA (fun q => { q with span := some (.abandoned [0x30, 0]) }))).takeMem = takes := by
  decide +kernel

/-- R183, R191: a transaction that a device reset cut off keeps the two bytes it had sent, also when the reset ends. -/
theorem test_lostKeepsBytes :
    ((after (.transaction .a [1, 2] 0) (withA (fun q => { q with span := some (.lost [0x30, 4]) }))).port .a).sent = [0x30, 4] ∧
    ((after (.deviceReset .pin ⟨true, true⟩ ⟨true, true⟩ ⟨true, true⟩)
      (withA (fun q => { q with span := some (.lost [0x30, 4]) }))).port .a).span = some (.lost [0x30, 4]) := by
  decide +kernel

/-- R190: a transaction that the line abandoned sends 0x00 through a device reset. -/
theorem test_lineOverReset :
    ((after (.resetPinAsserted .pin) (withA (fun q =>
      { q with resetLine := true, span := some (.abandoned [0x10]) }))).port .a).span = some (.abandoned [0x10]) := by
  decide +kernel

/-! ### Witnesses: for each statement with hypotheses, a part and operands that meet them -/

/-- What holds of the thing in an option holds of any thing it is said to hold. -/
theorem of_option {α : Type} {o : Option α} {P : α → Prop} (h : ∀ a ∈ o, P a) : ∀ a, o = some a → P a :=
  fun a ha => h a ha

/-- The part with nothing of title 1 in the way of a retirement or of a finalization. -/
def quiet : State :=
  { part with
    chapters := [(132, published .done 5 false)], queue := ⟨[], [], 0⟩,
    takeMem := { takes with takes := [(1, ⟨1, .closed, 94, some 1024, [some 0], none⟩)] },
    holdTable := ⟨List.replicate 16 0, [], 10⟩ }

theorem quiet_listens : quiet.listens .a ∧ ∀ c, quiet.allows .a c :=
  ⟨listens_of (by decide), fun c => by cases c <;> rfl⟩

/-- Take memory whose 32,768 groups are each in one place: take 4 owns group 1, and every other group is dirty. -/
def whole : TakeMemory :=
  { groups := [⟨.dirty, none, none, 0, false⟩, owned 4 1 0], clean := [], dirty := 0 :: List.range' 2 32766, engine := none,
    bad := [], takes := [(4, ⟨1, .faulted, 300, some 1024, [none, some 1], none⟩)], scrub := false, mem := [] }

theorem whole_law (s : State) (h : s.takeMem = whole) : s.GroupLaw := by
  refine ⟨by rw [h]; rfl, ?_⟩
  rw [h]
  have e : List.range 32768 = [0] ++ ([1] ++ List.range' 2 32766) := by
    rw [List.range_eq_range', show (32768 : Nat) = 32767 + 1 from rfl, List.range'_succ, show (32767 : Nat) = 32766 + 1 from rfl,
      List.range'_succ]
    rfl
  have p : whole.places = [0] ++ (List.range' 2 32766 ++ [1]) := by
    simp only [TakeMemory.places, whole, Take.owned, Option.toList, List.nil_append, List.append_nil, List.flatMap_cons,
      List.flatMap_nil, List.filterMap_cons, List.filterMap_nil, id]
    rfl
  rw [e, p]
  exact List.Perm.append_left [0] List.perm_append_comm

theorem witness_StepRunsFrontCommand : State.pending { part with pending := [.dispatch, .eraseStart] } = .dispatch :: [.eraseStart] := rfl

theorem witness_FrameReadsBack : Request.wellFormed (.readRange 255 255 255 4294967295 65535) = true := by decide

theorem witness_TransactionIsItsRequest : Instr.request? (.readRange .c 7 255 255 255 4294967295 65535) =
    some (.c, 7, .readRange 255 255 255 4294967295 65535) ∧ Request.wellFormed (.readRange 255 255 255 4294967295 65535) = true := by
  decide

theorem witness_FramesDiscarded :
    (part.listens .a ∧ ([0, 5, 4, 3, 0, 0] : List Byte).length < 7) ∧
    (part.listens .a ∧ ([0, 5, 5, 3, 0, 1, 0] : List Byte).length < 7 + fieldAt [0, 5, 5, 3, 0, 1, 0] 5 2) ∧
    (let s := withA (fun q => { q with state := .executing, operation := some ⟨0, false, .program 2 256 []⟩ })
     (s.port .a).span = none ∧ (s.port .a).state = .executing ∧ (s.port .a).resetLine = false ∧ s.resetHeld = none ∧
       Instr.request? (.laneInfo .a 3) = some (.a, 3, .laneInfo)) :=
  ⟨⟨part_listens.1, by decide⟩, ⟨part_listens.1, by decide⟩, by decide⟩

theorem witness_ReplyCollected :
    (let s := withA (fun q => { q with state := .replyReady, reply := some ⟨.ok, 3, {}, [1, 2]⟩ })
     (s.port .a).reply = some ⟨.ok, 3, {}, [1, 2]⟩ ∧ (s.port .a).span = none ∧ (s.port .a).state = .replyReady ∧
       (s.port .a).resetLine = false ∧ s.resetHeld = none) ∧
    (let s := withA (fun q => { q with state := .replyReady, reply := some ⟨.ok, 3, {}, [1, 2]⟩, span := some .replyReady })
     (s.port .a).reply = some ⟨.ok, 3, {}, [1, 2]⟩ ∧ (s.port .a).span = some .replyReady) := by decide +kernel

/-- A frame longer than its operand length; an operand length of 3,201; class 6; DELIVERY and OPEN-TAKE; handles 0 and 5, and one FREE;
frames that name a request. -/
theorem witness_RefusedBeforeTheTitle :
    (part.listens .a ∧ (0 : Byte).toNat + 256 * (0 : Byte).toNat ≤ ([1] : List Byte).length ∧
      (0 : Byte).toNat + 256 * (0 : Byte).toNat < ([1] : List Byte).length) ∧
    (part.listens .a ∧ (0x81 : Byte).toNat + 256 * (0x0C : Byte).toNat ≤ (List.replicate 3201 (0 : Byte)).length ∧
      3200 < (0x81 : Byte).toNat + 256 * (0x0C : Byte).toNat) ∧
    (part.listens .a ∧ readRequest (6 : Byte).toNat (1 : Byte).toNat (1 : Byte).toNat [] = none) ∧ (5 < 6) ∧
    (let s := withA (fun q => { q with role := .delivery })
     Instr.request? (.openTake .a 3 0) = some (.a, 3, .openTake 0) ∧ s.listens .a ∧ formatOk (.openTake 0) = true ∧
       ¬ s.allows .a .take) ∧
    (Instr.request? (.openTake .a 3 0) = some (.a, 3, .openTake 0) ∧ part.listens .a ∧ formatOk (.openTake 0) = true ∧
      part.allows .a .take ∧ usesTitle (.openTake 0) = true ∧ titleByte (.openTake 0) = 0) ∧
    (4 < titleByte (.openTake 5)) ∧
    (let s := { part with titles := [(1, title .opened 7)] }
     s.listens .a ∧ s.allows .a .take ∧ Tab.look s.titles (titleByte (.openTake 2)) = none) ∧
    (readRequest 1 3 9 [2, 1, 4, 3] = some (.closeTake 9 0x0102 0x0304) ∧ usesTitle (.closeTake 9 0x0102 0x0304) = true ∧
      Request.wellFormed (.closeTake 9 0x0102 0x0304) = true) := by
  refine ⟨⟨part_listens.1, by decide, by decide⟩, ⟨part_listens.1, ?_, by decide⟩, ⟨part_listens.1, by decide⟩, by decide,
    ⟨rfl, listens_of (by decide), rfl, fun h => ?_⟩, ⟨rfl, part_listens.1, rfl, part_listens.2 _, rfl, rfl⟩, by decide,
    ⟨listens_of (by decide), rfl, rfl⟩, by decide, rfl, by decide⟩
  · rw [List.length_replicate]; decide
  · exact absurd (show Role.accepts .delivery .take = true from h) (by decide)

theorem witness_RefusedByTheTitle :
    (Instr.request? (.openTake .a 3 3) = some (.a, 3, .openTake 3) ∧ part.listens .a ∧ part.allows .a .take ∧
      part.title? 3 = some (title .held 9) ∧ lockedIn .held (.openTake 3) = true) ∧
    (Instr.request? (.queueRender .a 3 4 0 0) = some (.a, 3, .queueRender 4 0 0) ∧ part.listens .a ∧ part.allows .a .render ∧
      part.title? 4 = some (title .final 10) ∧ lockedIn .final (.queueRender 4 0 0) = true) ∧
    (Instr.request? (.clearRoomTone .a 3 2) = some (.a, 3, .clearRoomTone 2) ∧ part.listens .a ∧ part.allows .a .plan ∧
      isTitleChange (.clearRoomTone 2) = true ∧ part.title? 2 = some (title .opened 8) ∧
      (256, chapter .measuring [seg]) ∈ part.chapters ∧ 256 / 128 = 2) :=
  ⟨⟨rfl, part_listens.1, part_listens.2 _, by decide, by decide⟩, ⟨rfl, part_listens.1, part_listens.2 _, by decide, by decide⟩,
    rfl, part_listens.1, part_listens.2 _, rfl, by decide, by decide, by decide⟩

theorem witness_RefusalChangesNothing :
    Instr.request? (.registerTitle .a 3 0) = some (.a, 3, .registerTitle 0) ∧ part.listens .a ∧
    exec (.registerTitle .a 3 0) part = .next (after (.registerTitle .a 3 0) part) ∧
    ((after (.registerTitle .a 3 0) part).port .a).state = .replyReady ∧
    ((after (.registerTitle .a 3 0) part).port .a).reply = some ⟨.range, 3, {}, []⟩ ∧ Status.range ≠ .ok :=
  ⟨rfl, part_listens.1, rfl, by decide +kernel, by decide +kernel, by decide⟩

theorem witness_PortsIndependent :
    portOf (.registerTitle .a 3 0) ≠ some .b ∧ resetsDevice (.registerTitle .a 3 0) = false ∧
    (∀ c sa sb sc, Instr.registerTitle .a 3 0 ≠ .deviceReset c sa sb sc) ∧
    exec (.registerTitle .a 3 0) part = .next (after (.registerTitle .a 3 0) part) :=
  ⟨by decide, rfl, by intros; exact Instr.noConfusion, rfl⟩

/-- Every clause: catalogue number 0; a number that title 2 holds; no FREE record; record 2 FREE. -/
theorem witness_RegisterTitle :
    (part.listens .a ∧ part.allows .a .plan) ∧
    (8 ≠ 0 ∧ part.title? 2 = some (title .opened 8) ∧ (title .opened 8).catalogue = 8 ∧
      ∀ h' t', h' < 2 → part.title? h' = some t' → t'.catalogue ≠ 8) ∧
    ((∀ h t, part.title? h = some t → t.catalogue ≠ 99) ∧ ∀ h, 1 ≤ h → h ≤ 4 → part.title? h ≠ none) ∧
    (let s := { part with titles := [(1, title .opened 7), (4, title .final 10)] }
     s.listens .a ∧ s.allows .a .plan ∧ (∀ h t, s.title? h = some t → t.catalogue ≠ 99) ∧ s.title? 2 = none ∧
       ∀ h', 1 ≤ h' → h' < 2 → s.title? h' ≠ none) := by
  refine ⟨⟨part_listens.1, part_listens.2 _⟩, ⟨by decide, by decide, rfl, ?_⟩, ⟨?_, ?_⟩, listens_of (by decide), rfl, ?_, by decide,
    ?_⟩
  · intro h' t' hl
    interval_cases h' <;> (refine of_option (P := fun t => t.catalogue ≠ 8) ?_ t'; decide)
  · intro h t ht
    have hh : 1 ≤ h ∧ h ≤ 4 := by by_contra hc; simp [State.title?, hc] at ht
    obtain ⟨h1, h2⟩ := hh
    revert ht
    interval_cases h <;> (refine of_option (P := fun t => t.catalogue ≠ 99) ?_ t; decide)
  · intro h h1 h2
    interval_cases h <;> decide
  · intro h t ht
    have hh : 1 ≤ h ∧ h ≤ 4 := by by_contra hc; simp [State.title?, hc] at ht
    obtain ⟨h1, h2⟩ := hh
    revert ht
    interval_cases h <;> (refine of_option (P := fun t => t.catalogue ≠ 99) ?_ t; decide)
  · intro h' h1 h2
    interval_cases h'
    decide

theorem witness_TitleParameters : part.listens .a ∧ part.allows .a .plan ∧ part.title? 1 = some (title .opened 7) ∧
    (title .opened 7).state = .opened ∧ part.titleInLane 1 = false :=
  ⟨part_listens.1, part_listens.2 _, by decide, rfl, by decide⟩

/-- No such take; a RECORDING one; a length of 4,799 and a span one past the end; the longest span that ends with the take. -/
theorem witness_RoomTone :
    (part.listens .a ∧ part.allows .a .plan ∧ part.title? 1 = some (title .opened 7) ∧ (title .opened 7).state = .opened ∧
      part.titleInLane 1 = false) ∧
    part.take? 1 1025 = none ∧
    (part.take? 1 2 = some ⟨1, .recording, 256, none, [some 1], none⟩) ∧
    (part.take? 1 1 = some ⟨1, .closed, 94, some 1024, [some 0], none⟩ ∧
      ¬ (4800 ≤ 4799 ∧ 4799 ≤ 96000 ∧ spanFits ⟨1, .closed, 94, some 1024, [some 0], none⟩ 0 4799) ∧
      ¬ (4800 ≤ 96000 ∧ 96000 ≤ 96000 ∧ spanFits ⟨1, .closed, 94, some 1024, [some 0], none⟩ 257 96000)) ∧
    spanFits ⟨1, .closed, 94, some 1024, [some 0], none⟩ 256 96000 := by
  refine ⟨⟨part_listens.1, part_listens.2 _, by decide, rfl, by decide⟩, by decide, by decide, ⟨by decide, by omega, ?_⟩, ?_⟩
  · intro h
    exact absurd h.2.2.1 (by decide)
  · refine ⟨by decide, fun i _ h2 => ⟨0, ?_⟩⟩
    obtain rfl : i = 0 := by omega
    rfl

/-- HELD and OPEN; FINAL; no chapter; chapter 0 offends and so does a stale one; all DONE with a RECORDING take and without. -/
theorem witness_TitleStates :
    (part.listens .a ∧ part.allows .a .plan) ∧ part.title? 1 = some (title .opened 7) ∧ part.title? 3 = some (title .held 9) ∧
    part.title? 4 = some (title .final 10) ∧ (∀ e ∈ part.chapters, e.1 / 128 ≠ 3) ∧
    (Tab.wf part.chapters = true ∧ part.chapter? ⟨1, 0⟩ = some (chapter .draft []) ∧ (chapter .draft []).state ≠ .done) ∧
    (let s := { part with chapters := [(128 + 127, published .done 1 true)] }
     s.listens .a ∧ s.allows .a .plan ∧ s.title? 1 = some (title .opened 7) ∧ Tab.wf s.chapters = true ∧
       s.chapter? ⟨1, 127⟩ = some (published .done 1 true) ∧
       ∀ c' k', c' < 127 → s.chapter? ⟨1, c'⟩ = some k' → k'.state = .done ∧ k'.stale = false) ∧
    (let s := { part with chapters := [(132, published .done 5 false)] }
     s.listens .a ∧ s.allows .a .plan ∧ s.title? 1 = some (title .opened 7) ∧
       (∃ e ∈ s.chapters, e.1 / 128 = 1) ∧ (∀ e ∈ s.chapters, e.1 / 128 = 1 → e.2.state = .done ∧ e.2.stale = false) ∧
       ∃ e ∈ s.takeMem.takes, e.2.title = 1 ∧ e.2.state = .recording) ∧
    (quiet.listens .a ∧ quiet.allows .a .plan ∧ quiet.title? 1 = some (title .opened 7) ∧
      (∃ e ∈ quiet.chapters, e.1 / 128 = 1) ∧
      (∀ e ∈ quiet.chapters, e.1 / 128 = 1 → e.2.state = .done ∧ e.2.stale = false) ∧
      ∀ e ∈ quiet.takeMem.takes, e.2.title = 1 → e.2.state ≠ .recording) := by
  refine ⟨⟨part_listens.1, part_listens.2 _⟩, by decide, by decide, by decide, by decide, ⟨by decide, by decide, by decide⟩,
    ⟨listens_of (by decide), rfl, by decide, by decide, by decide, ?_⟩,
    ⟨listens_of (by decide), rfl, by decide, by decide, by decide, by decide⟩,
    quiet_listens.1, quiet_listens.2 _, by decide, by decide, by decide, by decide⟩
  intro c' k' hl hc
  exfalso
  have hne : ¬ (128 + 127 = 1 * 128 + c') := by omega
  simp [State.chapter?, ChapterId.key, Tab.look] at hc
  omega

/-- BUSY by a lane and by a RECORDING take; LOCKED by a hold; taken. -/
theorem witness_RetireTitle :
    (part.listens .a ∧ part.allows .a .plan) ∧ (part.title? 2 = some (title .opened 8) ∧ part.titleInLane 2 = true) ∧
    (part.title? 1 = some (title .opened 7) ∧ part.titleRecording 1 = true) ∧
    (let s := { quiet with holdTable := part.holdTable }
     s.listens .a ∧ s.allows .a .plan ∧ s.title? 1 = some (title .opened 7) ∧ s.titleInLane 1 = false ∧
       s.titleRecording 1 = false ∧ ∃ e ∈ s.holdTable.holds, e.2.chapter.title = 1) ∧
    (let s := { quiet with takeMem := whole }
     s.listens .a ∧ s.allows .a .plan ∧ s.title? 1 = some (title .opened 7) ∧ s.titleInLane 1 = false ∧
       s.titleRecording 1 = false ∧ (∀ e ∈ s.holdTable.holds, e.2.chapter.title ≠ 1) ∧ s.GroupLaw) :=
  ⟨⟨part_listens.1, part_listens.2 _⟩, ⟨by decide, by decide⟩, ⟨by decide, by decide⟩,
    ⟨listens_of (by decide), rfl, by decide, by decide, by decide, by decide⟩,
    listens_of (by decide), rfl, by decide, by decide, by decide, by decide, whole_law _ rfl⟩

theorem witness_DefineChapterAndPads_define : (part.listens .a ∧ part.allows .a .plan ∧ part.title? 1 = some (title .opened 7)) ∧ 127 < 128 ∧
    part.chapter? ⟨1, 0⟩ = some (chapter .draft []) ∧ part.chapter? ⟨1, 127⟩ = none :=
  ⟨⟨part_listens.1, part_listens.2 _, by decide⟩, by decide, by decide, by decide⟩

/-- Index 128; index 127 without a record; take 1,025; slots 0 and 17; slot 16 free; generation 4; another port; another title. -/
theorem witness_NamesResolved :
    (Instr.request? (.queueRender .a 3 1 127 0) = some (.a, 3, .queueRender 1 127 0) ∧ part.listens .a ∧ part.allows .a .render ∧
      chapterNamed (.queueRender 1 127 0) = some 127 ∧ chapterNamed (.queueRender 1 128 0) = some 128 ∧
      part.title? 1 = some (title .opened 7) ∧ lockedIn .opened (.queueRender 1 127 0) = false ∧
      part.chapter? ⟨1, 127⟩ = none) ∧
    (Instr.request? (.closeTake .a 3 1 1025 1) = some (.a, 3, .closeTake 1 1025 1) ∧ part.allows .a .take ∧
      formatOk (.closeTake 1 1025 1) = true ∧ takeNamed (.closeTake 1 1025 1) = some 1025 ∧ part.take? 1 1025 = none) ∧
    (Instr.request? (.closeRead .a 3 1 16 0) = some (.a, 3, .closeRead 1 16 0) ∧ part.allows .a .read ∧
      handleNamed (.closeRead 1 16 0) = some (16, 0) ∧ handleNamed (.closeRead 1 0 0) = some (0, 0) ∧
      handleNamed (.closeRead 1 17 0) = some (17, 0) ∧ Tab.look part.holdTable.holds 16 = none) ∧
    (Tab.look part.holdTable.holds 1 = some ⟨.a, ⟨1, 4⟩, 0, 5, 0, none⟩ ∧ part.holdTable.gens.getD (1 - 1) 0 ≠ 4 ∧
      part.holdTable.gens.getD (1 - 1) 0 = 3 ∧ part.listens .b ∧ part.allows .b .read ∧ Port.a ≠ Port.b ∧
      part.title? 2 = some (title .opened 8) ∧ (1 ≠ titleByte (.closeRead 2 1 3))) :=
  ⟨⟨rfl, part_listens.1, part_listens.2 _, rfl, rfl, by decide, by decide, by decide⟩,
    ⟨rfl, part_listens.2 _, rfl, rfl, by decide⟩, ⟨rfl, part_listens.2 _, rfl, rfl, rfl, by decide⟩,
    by decide, by decide, by decide, listens_of (by decide), rfl, by decide, by decide, by decide⟩

/-- RANGE; taken out of a lane; taken in lane 0. -/
theorem witness_DefineChapterAndPads_pads :
    (part.listens .a ∧ part.allows .a .plan ∧ part.title? 1 = some (title .opened 7) ∧
      part.chapter? ⟨1, 1⟩ = some (chapter .draft [seg])) ∧ 240000 < 240001 ∧
    (timelineLength 240000 [seg] 240000 ≤ 268435456 ∧ ChapterState.draft.inLane = false) ∧
    (part.title? 2 = some (title .opened 8) ∧ part.chapter? ⟨2, 0⟩ = some (chapter .measuring [seg]) ∧
      ChapterState.measuring.inLane = true ∧ part.laneOf ⟨2, 0⟩ = some 0 ∧
      (part.lanes.get 0).render = some (render ⟨2, 0⟩ 1024 [] 0 (.measure ⟨0, none⟩ Meter.start))) :=
  ⟨⟨part_listens.1, part_listens.2 _, by decide, by decide⟩, by decide, ⟨by decide, rfl⟩, by decide, by decide, rfl, by decide, rfl⟩

theorem seg_fits : segmentFits ⟨1, .closed, 94, some 1024, [some 0], none⟩ seg := by
  refine ⟨by decide, by decide, by decide, by decide, by decide, by decide, fun i _ h2 => ⟨0, ?_⟩⟩
  obtain rfl : i = 0 := by simp only [seg] at h2; omega
  rfl

/-- A position past the end; a full list; no such take; a RECORDING one; a length of 0; a segment that fits. -/
theorem witness_SegmentsPlaced :
    (part.listens .a ∧ part.allows .a .plan ∧ part.title? 1 = some (title .opened 7) ∧
      part.chapter? ⟨1, 1⟩ = some (chapter .draft [seg])) ∧
    (chapter .draft [seg]).segments.length < 2 ∧
    (let s := { part with chapters := [(129, chapter .draft (List.replicate 32 seg))] }
     s.listens .a ∧ s.allows .a .plan ∧ s.title? 1 = some (title .opened 7) ∧
       s.chapter? ⟨1, 1⟩ = some (chapter .draft (List.replicate 32 seg)) ∧
       32 ≤ (chapter .draft (List.replicate 32 seg)).segments.length) ∧
    part.take? 1 1025 = none ∧ part.take? 1 2 = some ⟨1, .recording, 256, none, [some 1], none⟩ ∧
    part.take? 1 seg.take = some ⟨1, .closed, 94, some 1024, [some 0], none⟩ ∧
    ¬ segmentFits ⟨1, .closed, 94, some 1024, [some 0], none⟩ { seg with length := 0 } ∧
    segmentFits ⟨1, .closed, 94, some 1024, [some 0], none⟩ seg ∧ timelineLength 24000 [seg, seg] 96000 ≤ 268435456 ∧
    ((chapter .draft [seg]).segments.length ≤ 1 ∧ (chapter .draft [seg]).segments[0]? = some seg ∧
      timelineLength 24000 [seg] 96000 ≤ 268435456) :=
  ⟨⟨part_listens.1, part_listens.2 _, by decide, by decide⟩, by decide,
    ⟨listens_of (by decide), rfl, by decide, by decide, by decide⟩, by decide, by decide, by decide,
    fun h => absurd h.1 (by decide), seg_fits, by decide, by decide, rfl, by decide⟩

/-- RANGE; the last segment of a QUEUED chapter; a segment of a DRAFT one. -/
theorem witness_RemoveSegment :
    (part.listens .a ∧ part.allows .a .plan ∧ part.title? 1 = some (title .opened 7)) ∧
    (part.chapter? ⟨1, 1⟩ = some (chapter .draft [seg]) ∧ (chapter .draft [seg]).segments.length ≤ 1) ∧
    (part.chapter? ⟨1, 2⟩ = some (chapter .queued [seg]) ∧ 0 < (chapter .queued [seg]).segments.length ∧
      (chapter .queued [seg]).segments.length = 1) ∧
    ((chapter .draft [seg]).segments[0]? = some seg ∧ (chapter .draft [seg]).state = .draft) :=
  ⟨⟨part_listens.1, part_listens.2 _, by decide⟩, by decide, by decide, rfl, rfl⟩

theorem witness_CountsMove : 1 ≤ seg.length ∧ 5 < takes.groups.length := by decide

/-- LOCKED by a hold; DRAFT; QUEUED; in lane 0. -/
theorem witness_DeleteChapter :
    (part.listens .a ∧ part.allows .a .plan ∧ part.title? 1 = some (title .opened 7)) ∧
    (part.chapter? ⟨1, 4⟩ = some (published .done 5 false) ∧ ∃ e ∈ part.holdTable.holds, e.2.chapter = ⟨1, 4⟩) ∧
    (part.chapter? ⟨1, 1⟩ = some (chapter .draft [seg]) ∧ ∀ e ∈ part.holdTable.holds, e.2.chapter ≠ ⟨1, 1⟩) ∧
    (part.chapter? ⟨1, 2⟩ = some (chapter .queued [seg]) ∧ ∀ e ∈ part.holdTable.holds, e.2.chapter ≠ ⟨1, 2⟩) ∧
    (part.title? 2 = some (title .opened 8) ∧ part.chapter? ⟨2, 0⟩ = some (chapter .measuring [seg]) ∧
      (∀ e ∈ part.holdTable.holds, e.2.chapter ≠ ⟨2, 0⟩) ∧ ChapterState.measuring.inLane = true ∧
      part.laneOf ⟨2, 0⟩ = some 0 ∧
      (part.lanes.get 0).render = some (render ⟨2, 0⟩ 1024 [] 0 (.measure ⟨0, none⟩ Meter.start))) :=
  ⟨⟨part_listens.1, part_listens.2 _, by decide⟩, by decide, by decide, by decide, by decide, by decide, by decide, rfl, by decide,
    rfl⟩

/-- Priority 2; a QUEUED chapter; no segment; a count of 64; a count of 63 with each priority. Not waiting; QUEUED; in lane 1. -/
theorem witness_QueueAndCancel :
    (part.listens .a ∧ part.allows .a .render ∧ part.title? 1 = some (title .opened 7) ∧ (title .opened 7).state ≠ .final) ∧
    (1 < 2 ∧ part.chapter? ⟨1, 2⟩ = some (chapter .queued [seg])) ∧
    (part.chapter? ⟨1, 0⟩ = some (chapter .draft []) ∧ (chapter .draft []).segments = []) ∧
    (let s := { part with queue := { part.queue with count := 64 } }
     s.listens .a ∧ s.allows .a .render ∧ s.chapter? ⟨1, 1⟩ = some (chapter .draft [seg]) ∧ 64 ≤ s.queue.count) ∧
    (let s := { part with queue := { part.queue with count := 63 } }
     s.listens .a ∧ s.allows .a .render ∧ s.chapter? ⟨1, 1⟩ = some (chapter .draft [seg]) ∧
       (chapter .draft [seg]).segments ≠ [] ∧ s.queue.count < 64) ∧
    (part.chapter? ⟨1, 5⟩ = some (chapter .failed [seg])) ∧
    (part.chapter? ⟨2, 1⟩ = some (chapter .encoding [seg]) ∧ part.title? 2 = some (title .opened 8) ∧
      ChapterState.encoding.inLane = true ∧ part.laneOf ⟨2, 1⟩ = some 1 ∧
      (part.lanes.get 1).render = some (render ⟨2, 1⟩ 1024 [] 0 (.encode ⟨0, none⟩ flat 0 [encoder 680 false []]))) :=
  ⟨⟨part_listens.1, part_listens.2 _, by decide, by decide⟩, by decide, by decide, ⟨listens_of (by decide), rfl, by decide, by decide⟩,
    ⟨listens_of (by decide), rfl, by decide, by decide, by decide⟩, by decide, by decide, by decide, rfl, by decide, rfl⟩

theorem witness_RenderSettings : part.listens .a ∧ part.allows .a .render := ⟨part_listens.1, part_listens.2 _⟩

/-- Index 4; a chapter without a set; index 1 of one profile; COMMIT_WAIT; eight holds of the port; slot 2 free. -/
theorem witness_OpenReadAndReadRange_open :
    (part.listens .a ∧ part.allows .a .read ∧ part.title? 1 = some (title .opened 7)) ∧ 3 < 4 ∧
    (part.chapter? ⟨1, 1⟩ = some (chapter .draft [seg]) ∧ (chapter .draft [seg]).published = false) ∧
    (part.chapter? ⟨1, 4⟩ = some (published .done 5 false) ∧ Tab.look part.rendMem.sets (1 * 128 + 4) = some set4 ∧
      (title .opened 7).profiles.length ≤ 1 ∧ 0 < (title .opened 7).profiles.length ∧ set4.image? 0 = some ⟨0, [7], 100⟩) ∧
    (let s := { part with chapters := [(132, published .commitWait 5 false)] }
     s.listens .a ∧ s.allows .a .read ∧ s.chapter? ⟨1, 4⟩ = some (published .commitWait 5 false)) ∧
    (let s := { part with holdTable := { part.holdTable with
       holds := (List.range' 1 8).map (fun i => (i, ⟨.a, ⟨1, 4⟩, 0, 5, 0, none⟩)) } }
     s.listens .a ∧ s.allows .a .read ∧ 8 ≤ (s.holdTable.holds.filter (fun e => decide (e.2.owner = Port.a))).length) ∧
    (let s := { part with holdTable := { part.holdTable with
       holds := (List.range' 1 16).map (fun i => (i, ⟨.b, ⟨1, 4⟩, 0, 5, 0, none⟩)) } }
     s.listens .a ∧ s.allows .a .read ∧ 16 ≤ s.holdTable.holds.length) ∧
    (part.holdTable.holds.length < 16 ∧ (part.holdTable.holds.filter (fun e => decide (e.2.owner = Port.a))).length < 8 ∧
      Tab.look part.holdTable.holds 2 = none ∧ ∀ j, 1 ≤ j → j < 2 → Tab.look part.holdTable.holds j ≠ none) := by
  refine ⟨⟨part_listens.1, part_listens.2 _, by decide⟩, by decide, by decide, ⟨by decide, by decide, by decide, by decide, by decide⟩,
    ⟨listens_of (by decide), rfl, by decide⟩, ⟨listens_of (by decide), rfl, by decide⟩, ⟨listens_of (by decide), rfl, by decide⟩,
    by decide, by decide, by decide, fun j h1 h2 => ?_⟩
  interval_cases j
  decide

/-- Length 0, length 4,097 and offset 100 of 100 bytes; offset 99 with length 4,096. -/
theorem witness_OpenReadAndReadRange_read :
    (part.listens .a ∧ part.allows .a .read ∧ part.title? 1 = some (title .opened 7) ∧
      Tab.look part.holdTable.holds 1 = some ⟨.a, ⟨1, 4⟩, 0, 5, 0, none⟩ ∧ part.holdTable.gens.getD (1 - 1) 0 = 3 ∧
      Tab.look part.rendMem.sets (ChapterId.key ⟨1, 4⟩) = some set4 ∧ set4.image? 0 = some ⟨0, [7], 100⟩ ∧
      part.chapter? ⟨1, 4⟩ = some (published .done 5 false)) ∧ 4096 < 4097 ∧ 100 ≤ 100 ∧ 99 < 100 :=
  ⟨⟨part_listens.1, part_listens.2 _, by decide, by decide, by decide, by decide, by decide, by decide⟩, by decide, by decide,
    by decide⟩

/-- The part with a fetch in flight at port A. -/
def fetching (mark : Bool) : State :=
  { withA (fun q => { q with state := .executing, operation := some ⟨3, false, .fetch 1 false⟩, discardMark := mark }) with
    holdTable := { part.holdTable with holds := [(1, ⟨.a, ⟨1, 4⟩, 0, 5, 1000, some (99, 1)⟩)] } }

theorem witness_FetchCompletion (mark : Bool) :
    (fetching mark).resetHeld = none ∧ ((fetching mark).port .a).operation = some ⟨3, false, .fetch 1 false⟩ ∧
    Tab.look (fetching mark).holdTable.holds 1 = some ⟨.a, ⟨1, 4⟩, 0, 5, 1000, some (99, 1)⟩ ∧
    Tab.look (fetching mark).rendMem.sets (ChapterId.key ⟨1, 4⟩) = some set4 ∧ set4.image? 0 = some ⟨0, [7], 100⟩ ∧
    ((fetching mark).port .a).discardMark = mark ∧ Memory.wf (fetching mark).rendMem.mem = true := by
  cases mark <;> decide

/-- A held reset; no operation; a block program. -/
theorem witness_FetchCompletion_nothing :
    State.resetHeld { part with resetHeld := some .pin } ≠ none ∧ (part.port .a).operation = none ∧
    ((withA (fun q => { q with operation := some ⟨3, true, .program 2 256 []⟩ })).port .a).operation =
      some ⟨3, true, .program 2 256 []⟩ := by decide

/-- The part with the chapter of the hold waiting for its commit in lane 0. -/
def waiting : State :=
  { part with
    chapters := [(132, published .commitWait 65535 true)],
    lanes := { part.lanes with e0 := ⟨true, some (render ⟨1, 4⟩ 1024 [] 1 (.commitWait flat 0 [encoder 680 false [9]])), none⟩ } }

/-- A chapter that waits for this hold alone, and one that does not wait. -/
theorem witness_HoldsEnd_close :
    (part.listens .a ∧ part.allows .a .read ∧ part.title? 1 = some (title .opened 7) ∧
      Tab.look part.holdTable.holds 1 = some ⟨.a, ⟨1, 4⟩, 0, 5, 0, none⟩ ∧ Memory.wf part.rendMem.mem = true ∧
      ∀ k, part.chapter? ⟨1, 4⟩ = some k → k.state ≠ .commitWait) ∧
    (waiting.listens .a ∧ waiting.allows .a .read ∧ waiting.title? 1 = some (title .opened 7) ∧
      Tab.look waiting.holdTable.holds 1 = some ⟨.a, ⟨1, 4⟩, 0, 5, 0, none⟩ ∧ Memory.wf waiting.rendMem.mem = true ∧
      (∀ e ∈ Tab.drop waiting.holdTable.holds 1, e.2.chapter ≠ ⟨1, 4⟩) ∧
      waiting.chapter? ⟨1, 4⟩ = some (published .commitWait 65535 true) ∧ waiting.laneOf ⟨1, 4⟩ = some 0 ∧
      (waiting.lanes.get 0).render = some (render ⟨1, 4⟩ 1024 [] 1 (.commitWait flat 0 [encoder 680 false [9]]))) := by
  refine ⟨⟨part_listens.1, part_listens.2 _, by decide, by decide, by decide, ?_⟩,
    ⟨listens_of (by decide), rfl, by decide, by decide, by decide, by decide, by decide, by decide, rfl⟩⟩
  refine of_option (P := fun k : Chapter => k.state ≠ .commitWait) ?_
  decide

theorem witness_HoldsEnd_clock :
    part.resetHeld = none ∧ (∀ e ∈ (fetching false).holdTable.holds, e.2.remaining ≠ 0 ∨ e.2.read ≠ none) ∧
    (Tab.wf part.holdTable.holds = true ∧ Memory.wf part.rendMem.mem = true ∧
      Tab.look part.holdTable.holds 1 = some ⟨.a, ⟨1, 4⟩, 0, 5, 0, none⟩ ∧
      ∀ j x, j < 1 → Tab.look part.holdTable.holds j = some x → x.remaining ≠ 0 ∨ x.read ≠ none) := by
  refine ⟨by decide, by decide, by decide, by decide, by decide, fun j x hj => ?_⟩
  obtain rfl : j = 0 := by omega
  refine of_option (P := fun x => x.remaining ≠ 0 ∨ x.read ≠ none) ?_ x
  decide

theorem witness_NoticeRequests : part.listens .a ∧ part.allows .a .query ∧ 4 < 5 ∧ 32 ≤ (32 : Byte).toNat ∧ (31 : Byte).toNat < 32 :=
  ⟨part_listens.1, part_listens.2 _, by decide, by decide, by decide⟩

/-- Lists in which the key is absent, and lists in which it stands second. -/
theorem witness_NoticesMove :
    (∀ e ∈ ([] : List DoneEntry), e.chapter ≠ ⟨1, 4⟩) ∧
    ([⟨⟨1, 3⟩, 2⟩, ⟨⟨1, 4⟩, 5⟩] = ([⟨⟨1, 3⟩, 2⟩] : List DoneEntry) ++ ⟨⟨1, 4⟩, 5⟩ :: [] ∧
      ∀ e ∈ ([⟨⟨1, 3⟩, 2⟩] : List DoneEntry), e.chapter ≠ ⟨1, 4⟩) ∧
    (∀ e ∈ ([⟨⟨1, 4⟩, 1, 0⟩] : List StarvedEntry), ¬ (e.chapter = ⟨1, 4⟩ ∧ e.rendition = 0)) ∧
    (∀ e ∈ ([⟨2, 0, ⟨1, 4⟩, 0⟩] : List ExpiredEntry), e.slot ≠ 1) := by decide

/-- A title; index 128; an index without a record and one with; a take with two entries, from entries 1 and 2. -/
theorem witness_InfoRequests :
    (part.listens .a ∧ part.allows .a .query) ∧ part.title? 1 = some (title .opened 7) ∧ 127 < 128 ∧
    part.chapter? ⟨1, 127⟩ = none ∧ part.chapter? ⟨1, 0⟩ = some (chapter .draft []) ∧
    part.take? 1 4 = some ⟨1, .faulted, 300, some 1024, [none, some 3], none⟩ :=
  ⟨⟨part_listens.1, part_listens.2 _⟩, by decide, by decide, by decide, by decide, by decide⟩

/-- No chapter waits for a commit; a chapter waits for a hold of the port alone. -/
theorem witness_PortReset :
    (part.listens .a ∧ part.allows .a .query ∧ part.TableLaw ∧ part.MemoryLaw ∧ ∀ e ∈ part.chapters, e.2.state ≠ .commitWait) ∧
    (waiting.listens .a ∧ waiting.allows .a .query ∧ waiting.TableLaw ∧ waiting.MemoryLaw ∧
      waiting.chapter? ⟨1, 4⟩ = some (published .commitWait 65535 true) ∧ waiting.laneOf ⟨1, 4⟩ = some 0 ∧
      (∀ e ∈ waiting.holdTable.holds, e.2.chapter.index ≤ 127) ∧ (∃ e ∈ waiting.holdTable.holds, e.2.chapter = ⟨1, 4⟩) ∧
      ∀ e ∈ waiting.holdTable.holds, e.2.chapter = ⟨1, 4⟩ → e.2.owner = .a ∧ e.2.read = none) :=
  ⟨⟨part_listens.1, part_listens.2 _, by unfold State.TableLaw; decide, by unfold State.MemoryLaw; decide, by decide⟩,
    listens_of (by decide), rfl, by unfold State.TableLaw; decide, by unfold State.MemoryLaw; decide, by decide, by decide, by decide,
    by decide, by decide⟩

/-- A port that is IDLE, and one that is EXECUTING; a transaction that a first assertion abandoned after 1 byte; one begun under the
line, and one that begins and ends under it; a device reset that is held. -/
theorem witness_PortResetLines :
    (part.resetHeld = none ∧ part.TableLaw ∧ part.MemoryLaw ∧ (part.port .a).state ≠ .executing) ∧
    ((fetching false).resetHeld = none ∧ (fetching false).TableLaw ∧ (fetching false).MemoryLaw ∧
      ((fetching false).port .a).state = .executing) ∧
    (((withA (fun q => { q with span := some (.abandoned [0x10]) })).port .a).span = some (.abandoned [0x10])) ∧
    (((withA (fun q => { q with span := some .muted })).port .a).span = some .muted) ∧
    (let s := withA (fun q => { q with resetLine := true })
     (s.port .a).span = none ∧ (s.port .a).resetLine = true) ∧
    State.resetHeld { part with resetHeld := some .pin } ≠ none ∧
    Instr.request? (.laneInfo .a 3) = some (.a, 3, .laneInfo) := by
  unfold State.TableLaw State.MemoryLaw
  decide

/-- An event inside the part while a reset is held; a transaction lost to a reset, and one that begins and ends while it is held. -/
theorem witness_DeviceResetHeld :
    (State.resetHeld { part with resetHeld := some .pin } ≠ none ∧ Instr.request? (.dispatch) = none ∧ portOf .dispatch = none ∧
      resetsDevice .dispatch = false) ∧
    ((withA (fun q => { q with span := some (.lost [0x20]) })).port .a).span = some (.lost [0x20]) ∧
    (let s := { part with resetHeld := some .pin }
     (s.port .a).span = none ∧ (s.port .a).resetLine = false ∧ s.resetHeld ≠ none) := by decide

theorem look_all {α : Type} (l : List Nat) (v : α) (k : Nat) (h : k ∈ l) : Tab.look (l.map (fun i => (i, v))) k = some v := by
  induction l with
  | nil => cases h
  | cons j t ih =>
    by_cases hj : j = k
    · simp [Tab.look, hj]
    · simp only [List.map_cons, Tab.look, hj, if_false]
      exact ih ((List.mem_cons.mp h).resolve_left (fun e => hj e.symm))

/-- The take memory of the tests with its take table or clean pool replaced. -/
def partTakes (t : Tab Take) (clean : List Nat) : State := { part with takeMem := { takes with takes := t, clean := clean } }

theorem partTakes_listens (t : Tab Take) (clean : List Nat) : (partTakes t clean).listens .a ∧ ∀ c, (partTakes t clean).allows .a c :=
  ⟨listens_of ⟨rfl, rfl, rfl, rfl⟩, fun c => by cases c <;> rfl⟩

/-- OPEN-TAKE with every id taken, with no clean group, and with take 5 free and group 4 clean. CLOSE-TAKE of a CLOSED take, of one with
a block in flight, with tails 0, 1,025, 1 and 1,024, and of an empty take. -/
theorem witness_TakesOpenAndClose :
    (part.listens .a ∧ part.allows .a .take ∧ part.title? 1 = some (title .opened 7)) ∧
    (let s := partTakes ((List.range' 1 1024).map (fun i => (i, ⟨1, .closed, 1, some 1, [none], none⟩))) [4]
     s.listens .a ∧ s.allows .a .take ∧ s.title? 1 = some (title .opened 7) ∧
       ∀ id, 1 ≤ id → id ≤ 1024 → Tab.look s.takeMem.takes id ≠ none) ∧
    (Tab.look part.takeMem.takes 5 = none ∧ (∀ j, 1 ≤ j → j < 5 → Tab.look part.takeMem.takes j ≠ none) ∧
      part.takeMem.clean = 4 :: []) ∧
    (let s := partTakes takes.takes []
     s.listens .a ∧ s.allows .a .take ∧ Tab.look s.takeMem.takes 5 = none ∧ s.takeMem.clean = []) ∧
    (part.take? 1 1 = some ⟨1, .closed, 94, some 1024, [some 0], none⟩) ∧
    (let s := partTakes [(2, ⟨1, .recording, 1, none, [some 1], some 1⟩)] []
     s.listens .a ∧ s.allows .a .take ∧ s.take? 1 2 = some ⟨1, .recording, 1, none, [some 1], some 1⟩) ∧
    (part.take? 1 2 = some ⟨1, .recording, 256, none, [some 1], none⟩ ∧ 1024 < 1025 ∧ 1 ≤ 256) ∧
    (part.take? 1 3 = some ⟨1, .recording, 0, none, [some 2], none⟩ ∧ (part.takeMem.group 2).faulted = false) := by
  refine ⟨⟨part_listens.1, part_listens.2 _, by decide⟩, ⟨(partTakes_listens _ _).1, rfl, by decide, fun id h1 h2 => ?_⟩,
    ⟨by decide, fun j h1 h2 => ?_, by decide⟩, ⟨(partTakes_listens _ _).1, rfl, by decide, rfl⟩, by decide,
    ⟨(partTakes_listens _ _).1, rfl, by decide⟩, by decide, by decide⟩
  · have := look_all (List.range' 1 1024) (⟨1, .closed, 1, some 1, [none], none⟩ : Take) id (by rw [List.mem_range'_1]; omega)
    simp only [partTakes, this]
    exact Option.some_ne_none _
  · interval_cases j <;> decide

/-- The data of a block of zeros. -/
def zeros : List Byte := List.replicate 3072 0

/-- Data of 0 bytes; a CLOSED take; one with a block in flight; a wrong CRC-16; index 255 of 256; a full take; no clean group for block
256; block 0; block 256 with group 4 clean. -/
theorem witness_WriteBlock :
    (part.listens .a ∧ part.allows .a .take ∧ part.title? 1 = some (title .opened 7)) ∧ ([] : List Byte).length ≠ 3072 ∧
    zeros.length = 3072 ∧ part.take? 1 1 = some ⟨1, .closed, 94, some 1024, [some 0], none⟩ ∧
    (let s := partTakes [(2, ⟨1, .recording, 1, none, [some 1], some 1⟩)] []
     s.listens .a ∧ s.allows .a .take ∧ s.take? 1 2 = some ⟨1, .recording, 1, none, [some 1], some 1⟩) ∧
    part.take? 1 2 = some ⟨1, .recording, 256, none, [some 1], none⟩ ∧ crc16 zeros ≠ crc16 zeros + 1 ∧ 255 ≠ 256 ∧
    (let s := partTakes [(2, ⟨1, .recording, 1048576, none, [some 1], none⟩)] []
     s.listens .a ∧ s.allows .a .take ∧ s.take? 1 2 = some ⟨1, .recording, 1048576, none, [some 1], none⟩) ∧
    (let s := partTakes takes.takes []
     s.listens .a ∧ s.allows .a .take ∧ s.take? 1 2 = some ⟨1, .recording, 256, none, [some 1], none⟩ ∧ s.takeMem.clean = []) ∧
    (256 ≠ 0 ∧ 256 % 256 = 0 ∧ 256 ≠ 1048576 ∧ part.takeMem.clean = 4 :: []) ∧
    (part.take? 1 3 = some ⟨1, .recording, 0, none, [some 2], none⟩ ∧ ¬ (0 ≠ 0 ∧ 0 % 256 = 0) ∧ 0 ≠ 1048576) := by
  refine ⟨⟨part_listens.1, part_listens.2 _, by decide⟩, by decide, List.length_replicate, by decide,
    ⟨(partTakes_listens _ _).1, rfl, by decide⟩, by decide, ?_, by decide, ⟨(partTakes_listens _ _).1, rfl, by decide⟩,
    ⟨(partTakes_listens _ _).1, rfl, by decide, rfl⟩, by decide, by decide⟩
  generalize crc16 zeros = x
  bv_omega

/-- The part with a block program of a take in flight at port A. -/
def programming (mark : Bool) (take block : Nat) (t : Take) : State :=
  { withA (fun q => { q with
      state := .executing, operation := some ⟨3, false, .program take block []⟩, discardMark := mark }) with
    takeMem := { takes with takes := [(take, t)] } }

/-- A later block of a group, the first block of a later group, and block 0, with and without the discard mark. -/
theorem witness_ProgramEnds (mark : Bool) :
    (let s := programming mark 2 255 ⟨1, .recording, 255, none, [some 1], some 255⟩
     s.resetHeld = none ∧ (s.port .a).operation = some ⟨3, false, .program 2 255 []⟩ ∧ (s.port .a).discardMark = mark ∧
       Tab.look s.takeMem.takes 2 = some ⟨1, .recording, 255, none, [some 1], some 255⟩ ∧
       ([some 1] : List (Option Nat))[255 / 256]? = some (some 1) ∧ Memory.wf s.takeMem.mem = true ∧
       ([some 1] : List (Option Nat)).getLast? = some (some 1) ∧ 255 ≠ 0 ∧ 255 % 256 ≠ 0) ∧
    (let s := programming mark 2 256 ⟨1, .recording, 256, none, [some 1, some 4], some 256⟩
     s.resetHeld = none ∧ (s.port .a).operation = some ⟨3, false, .program 2 256 []⟩ ∧
       Tab.look s.takeMem.takes 2 = some ⟨1, .recording, 256, none, [some 1, some 4], some 256⟩ ∧
       ([some 1, some 4] : List (Option Nat)).getLast? = some (some 4) ∧ 4 < s.takeMem.groups.length ∧ 256 ≠ 0 ∧ 256 % 256 = 0) ∧
    (let s := programming mark 3 0 ⟨1, .recording, 0, none, [some 2], some 0⟩
     s.resetHeld = none ∧ (s.port .a).operation = some ⟨3, false, .program 3 0 []⟩ ∧
       Tab.look s.takeMem.takes 3 = some ⟨1, .recording, 0, none, [some 2], some 0⟩ ∧ 2 < s.takeMem.groups.length) := by
  cases mark <;> decide

/-- The engine busy; a dirty list to take from; the engine empty; the engine erasing group 5. -/
theorem witness_EraseEngine : part.resetHeld = none ∧ (part.takeMem.engine = none ∧ part.takeMem.dirty = 5 :: []) ∧
    (let s := { part with takeMem := { takes with dirty := [], engine := some 5 } }
     s.resetHeld = none ∧ s.takeMem.engine ≠ none ∧ s.takeMem.engine = some 5) := by decide

/-- DISCARD-FIRST at indexes 2, 1 and 0 of two entries. DISCARD-LAST in NONE, in BOTH_SET, and in FIRST_SET: no such take, an index below
the first, an index past the list, and the last entry. -/
theorem witness_DiscardMarks :
    (part.listens .a ∧ part.allows .a .take ∧ part.title? 1 = some (title .opened 7) ∧
      part.take? 1 4 = some ⟨1, .faulted, 300, some 1024, [none, some 3], none⟩ ∧ (part.port .a).sequence = .none) ∧
    (let s := withA (fun q => { q with sequence := .bothSet 4 0 1 })
     s.listens .a ∧ s.allows .a .take ∧ (s.port .a).sequence = .bothSet 4 0 1) ∧
    (let s := withA (fun q => { q with sequence := .firstSet 4 1 })
     s.listens .a ∧ s.allows .a .take ∧ (s.port .a).sequence = .firstSet 4 1 ∧ s.take? 1 1025 = none ∧
       s.take? 1 4 = some ⟨1, .faulted, 300, some 1024, [none, some 3], none⟩ ∧ 0 < 1 ∧ 1 ≤ 2 ∧
       ([none, some 3] : List (Option Nat)).length ≤ 2 ∧ 1 < ([none, some 3] : List (Option Nat)).length) :=
  ⟨⟨part_listens.1, part_listens.2 _, by decide, by decide, by decide⟩, ⟨listens_of (by decide), rfl, by decide⟩,
    listens_of (by decide), rfl, by decide, by decide, by decide, by decide, by decide, by decide, by decide⟩

/-- NONE; FIRST_SET; BOTH_SET with a take that is gone; a run of both entries of take 4, and one past the end of its list. -/
theorem witness_DiscardCommit :
    (part.listens .a ∧ part.allows .a .take ∧ part.title? 1 = some (title .opened 7) ∧ (part.port .a).sequence = .none) ∧
    (let s := withA (fun q => { q with sequence := .firstSet 4 1 })
     s.listens .a ∧ s.allows .a .take ∧ (s.port .a).sequence = .firstSet 4 1) ∧
    (let s := withA (fun q => { q with sequence := .bothSet 9 0 1 })
     s.listens .a ∧ s.allows .a .take ∧ (s.port .a).sequence = .bothSet 9 0 1 ∧ s.take? 1 9 = none) ∧
    (let s := { withA (fun q => { q with sequence := .bothSet 4 0 1 }) with takeMem := whole }
     s.listens .a ∧ s.allows .a .take ∧ (s.port .a).sequence = .bothSet 4 0 1 ∧
       s.take? 1 4 = some ⟨1, .faulted, 300, some 1024, [none, some 1], none⟩ ∧
       1 < ([none, some 1] : List (Option Nat)).length ∧ s.GroupLaw) ∧
    (let s := { withA (fun q => { q with sequence := .bothSet 4 1 2 }) with takeMem := whole }
     s.listens .a ∧ s.allows .a .take ∧ (s.port .a).sequence = .bothSet 4 1 2 ∧
       s.take? 1 4 = some ⟨1, .faulted, 300, some 1024, [none, some 1], none⟩ ∧
       ([none, some 1] : List (Option Nat)).length ≤ 2 ∧ s.GroupLaw) :=
  ⟨⟨part_listens.1, part_listens.2 _, by decide, by decide⟩, ⟨listens_of (by decide), rfl, by decide⟩,
    ⟨listens_of (by decide), rfl, by decide, by decide⟩,
    ⟨listens_of ⟨rfl, rfl, rfl, rfl⟩, rfl, rfl, by decide, by decide, whole_law _ rfl⟩,
    listens_of ⟨rfl, rfl, rfl, rfl⟩, rfl, rfl, by decide, by decide, whole_law _ rfl⟩

/-- No lane ready; nothing queued; lane 2 ready with the head of NORMAL, and with the head of RUSH. -/
theorem witness_Dispatch :
    (let s := { part with lanes := { part.lanes with e2 := ⟨false, none, none⟩ } }
     s.resetHeld = none ∧ ∀ i, ¬ ((s.lanes.get i).render = none ∧ (s.lanes.get i).enabled = true ∧
       some i ∈ [s.wheel.pattern.e0, s.wheel.pattern.e1, s.wheel.pattern.e2, s.wheel.pattern.e3])) ∧
    (let s := { part with queue := ⟨[], [], 2⟩ }
     s.queue.rush = [] ∧ s.queue.normal = []) ∧
    (part.resetHeld = none ∧ ((part.lanes.get 2).render = none ∧ (part.lanes.get 2).enabled = true ∧
        some 2 ∈ [part.wheel.pattern.e0, part.wheel.pattern.e1, part.wheel.pattern.e2, part.wheel.pattern.e3]) ∧
      (∀ j : Fin 4, j < 2 → ¬ ((part.lanes.get j).render = none)) ∧ part.title? 1 = some (title .opened 7) ∧
      part.chapter? ⟨1, 2⟩ = some (chapter .queued [seg]) ∧ part.queue.rush = [] ∧ part.queue.normal = ⟨1, 2⟩ :: []) ∧
    (let s := { part with queue := ⟨[⟨1, 2⟩], [], 3⟩ }
     s.queue.rush = ⟨1, 2⟩ :: [] ∧ s.chapter? ⟨1, 2⟩ = some (chapter .queued [seg])) := by decide

/-- A chapter of one zero sample, of 1,025 zero samples, and of one segment. -/
def tiny : Timeline := ⟨1, [], 0⟩

theorem tiny_built (m : TakeMemory) (f : Option Nat) : buildBlock m f (blockSources tiny none 0) none 0 = .complete none [0] := by
  have : blockSources tiny none 0 = [.zero] := by decide
  rw [this]; rfl

/-- NONE in the slot; a disabled lane, an IDLE one and one in COMMIT_WAIT; the last block of a pass, and one before the last; a read error in
either pass. -/
theorem witness_MeasureSlot :
    part.resetHeld = none ∧
    (let s := { part with wheel := { part.wheel with slot := 3 } }
     s.resetHeld = none ∧ s.wheel.pattern.get s.wheel.slot = none) ∧
    (let s := { part with wheel := { part.wheel with slot := 2 } }
     s.wheel.pattern.get s.wheel.slot = some 2 ∧ (s.lanes.get 2).render = none) ∧
    (waiting.wheel.pattern.get waiting.wheel.slot = some 0 ∧
      (waiting.lanes.get 0).render = some (render ⟨1, 4⟩ 1024 [] 1 (.commitWait flat 0 [encoder 680 false [9]]))) ∧
    (let r := render ⟨2, 0⟩ 1 [] 0 (.measure ⟨0, none⟩ Meter.start)
     let s := { part with lanes := { part.lanes with e0 := ⟨true, some r, none⟩ } }
     s.resetHeld = none ∧ s.wheel.pattern.get s.wheel.slot = some 0 ∧ (s.lanes.get 0).enabled = true ∧
       (s.lanes.get 0).render = some r ∧ r.pass + 1 = r.timeline.blocks ∧
       buildBlock s.takeMem none (blockSources r.timeline r.params.roomTone r.pass) none 0 = .complete none [0]) ∧
    (let r := render ⟨2, 0⟩ 1025 [] 0 (.measure ⟨0, none⟩ Meter.start)
     let s := { part with lanes := { part.lanes with e0 := ⟨true, some r, none⟩ } }
     s.wheel.pattern.get s.wheel.slot = some 0 ∧ (s.lanes.get 0).render = some r ∧ r.pass + 1 ≠ r.timeline.blocks ∧
       buildBlock s.takeMem none (blockSources r.timeline r.params.roomTone r.pass) none 0 =
         .complete none (List.replicate 1024 0)) ∧
    (let r := render ⟨2, 0⟩ 0 [⟨1, 0, 1, 0, 0, 0⟩] 0 (.encode ⟨0, none⟩ flat 0 [])
     let s := { part with lanes := { part.lanes with e0 := ⟨true, some r, none⟩ } }
     s.wheel.pattern.get s.wheel.slot = some 0 ∧ (s.lanes.get 0).render = some r ∧
       buildBlock s.takeMem (some 0) (blockSources r.timeline r.params.roomTone r.pass) none 0 = .readError 0) := by
  refine ⟨by decide, by decide, by decide, ⟨by decide, rfl⟩, ⟨by decide, by decide, by decide, rfl, by decide, tiny_built _ _⟩,
    ⟨by decide, rfl, by decide, by decide +kernel⟩, by decide, rfl, by decide⟩

/-- The part with a chapter of one sample in ENCODE in lane 0, and with these pages free. -/
def encoding (pool : List Nat) (length : Nat) : State :=
  { part with
    lanes := { part.lanes with
      e0 := ⟨true, some (render ⟨1, 4⟩ length [] 0 (.encode ⟨0, none⟩ flat 0 [encoder 680 false []])), none⟩ },
    rendMem := { part.rendMem with pool := pool } }

/-- An empty pool; a frame before the last; the last frame with a hold on the chapter, and without. -/
theorem witness_EncodeSlot :
    ((encoding [] 1).resetHeld = none ∧ (encoding [] 1).wheel.pattern.get (encoding [] 1).wheel.slot = some 0 ∧
      ((encoding [] 1).lanes.get 0).enabled = true ∧
      ((encoding [] 1).lanes.get 0).render = some (render ⟨1, 4⟩ 1 [] 0 (.encode ⟨0, none⟩ flat 0 [encoder 680 false []])) ∧
      buildBlock (encoding [] 1).takeMem none (blockSources tiny none 0) none 0 = .complete none [0]) ∧
    (drawPages (isVoiced (-550) (gainBlock 1048576 [0])) [encoder 680 false []] []).2.2 = false ∧
    (drawPages (isVoiced (-550) (gainBlock 1048576 [0])) [encoder 680 false []] [8]).2.2 = true ∧
    (0 + 1 = tiny.blocks ∧ ∃ e ∈ part.holdTable.holds, e.2.chapter = ⟨1, 4⟩) ∧
    (part.chapter? ⟨1, 4⟩ = some (published .done 5 false) ∧ Memory.wf part.rendMem.mem = true ∧
      ∀ e ∈ (HoldTable.holds ⟨[], [], 10⟩), e.2.chapter ≠ ⟨1, 4⟩) ∧
    (0 + 1 ≠ Timeline.blocks ⟨1025, [], 0⟩ ∧
      buildBlock (encoding [8] 1025).takeMem none (blockSources ⟨1025, [], 0⟩ none 0) none 0 =
        .complete none (List.replicate 1024 0)) := by
  refine ⟨⟨by decide, by decide, by decide, rfl, tiny_built _ _⟩, by decide +kernel, by decide +kernel, by decide, by decide,
    by decide, by decide +kernel⟩

/-- A block before the last, and a last one; the first sample of a tone part and of a segment, and the last of a segment of 4,800. -/
theorem witness_BlocksMakeTheTimeline : 0 + 1 < Timeline.blocks ⟨1025, [], 0⟩ ∧ 1 ≤ tiny.length ∧ 0 < tiny.headPad ∧ 0 < seg.length ∧
    4799 < seg.length := by decide

theorem witness_AssemblyBuilds : heldTrue takes none ∧ buildBlock takes none (blockSources tiny none 0) none 0 = .complete none [0] ∧
    47999 < 48000 ∧ 48000 ≤ 48000 ∧ 65536 ≤ 65536 ∧ (0 : Int) ≤ 0 ∧ (-1 : Int) < 0 :=
  ⟨trivial, tiny_built _ _, by decide, by decide, by decide, by decide, by decide⟩

theorem witness_Levels : 1 ≤ 2 ^ 46 ∧ (1 ≤ 8388608) ∧ (-899 : Int) ≤ -899 ∧ (-899 : Int) ≤ 0 := by decide

theorem witness_GainFactor : (-200 : Int) ≤ 240 ∧ ∀ x ∈ ([-8388608, 8388607] : List Int), -8388608 ≤ x ∧ x ≤ 8388607 := by decide

theorem witness_MeterAndGain : (-100 : Int) ≤ (Loudness.mk (-190) 20 (-100) (-600) (-550)).ceiling ∧ (0 : Int) ≤ 0 ∧
    some (-300) = some (-300 : Int) ∧ (-300 : Int) ≤ 0 ∧ Meter.start.bins.length = 901 ∧ (-900 : Int) ≤ -900 := by decide +kernel

theorem witness_CoderTakesFrames : Profile.inRange defaultProfile = true ∧ Profile.inRange ⟨64, 64, 64, 65535, 65535, 65535⟩ = true ∧
    (drawPages true [encoder 680 false []] [8]).2.2 = true ∧ [encoder 680 false []][0]? = some (encoder 680 false []) ∧
    Memory.wf [] = true ∧ ([encoder 680 false [7, 9]].flatMap (fun e => e.pages)).Nodup := by
  decide

/-- The part about to dispatch. -/
def dispatching : State := { part with pending := [.dispatch] }

theorem witness_StepsKeepPorts : dispatching.AttnLaw ∧ dispatching.PortLaw ∧
    step dispatching = .next (after .dispatch { dispatching with pending := [] }) := by
  refine ⟨fun p => ?_, fun p => ?_, rfl⟩
  · cases p <;> decide
  · unfold PortRecord.PortLaw
    cases p <;> decide

theorem witness_StepsKeepCanonicalForms : dispatching.MemoryLaw ∧ dispatching.TableLaw ∧
    step dispatching = .next (after .dispatch { dispatching with pending := [] }) := by
  refine ⟨?_, ?_, rfl⟩
  · unfold State.MemoryLaw; decide
  · unfold State.TableLaw; decide

theorem witness_StepsKeepGroups : State.GroupLaw { dispatching with takeMem := whole } ∧
    step { dispatching with takeMem := whole } = .next (after .dispatch { dispatching with takeMem := whole, pending := [] }) :=
  ⟨whole_law _ rfl, rfl⟩

/-- The part about to dispatch, with every page in the pool. -/
def allFree : State := { dispatching with rendMem := ⟨List.range 1048576, [], []⟩ }

theorem witness_StepsKeepPages : allFree.PageLaw ∧ step allFree = .next (after .dispatch { allFree with pending := [] }) := by
  refine ⟨⟨rfl, ?_⟩, rfl⟩
  have hl : allFree.lanePages = [] := by decide
  have hp : allFree.allPages = List.range 1048576 ++ [] ++ allFree.lanePages := by
    unfold State.allPages
    generalize allFree.lanePages = l
    simp only [allFree, List.flatMap_nil]
  rw [hp, hl, List.append_nil, List.append_nil]

theorem witness_StepsKeepNotices : dispatching.NoticeLaw ∧
    step dispatching = .next (after .dispatch { dispatching with pending := [] }) := by
  refine ⟨fun p => ?_, rfl⟩
  unfold NoticeLists.KeyLaw
  cases p <;> decide

theorem witness_StepsKeepRenders : dispatching.RenderLaw ∧
    step dispatching = .next (after .dispatch { dispatching with pending := [] }) := by
  refine ⟨⟨by decide, by decide, by decide, fun c k hc hk => ?_, by decide, fun i r k => ?_, by decide, by decide⟩, rfl⟩
  · obtain ⟨th, n⟩ := c
    have hm := Tab.mem_of_look hk
    have hall : ∀ e ∈ dispatching.chapters,
        ((e.2.state = .queued ∧ e.2.priority = .rush) ↔ ChapterId.ofKey e.1 ∈ dispatching.queue.rush) ∧
        ((e.2.state = .queued ∧ e.2.priority = .normal) ↔ ChapterId.ofKey e.1 ∈ dispatching.queue.normal) ∧
        (e.2.state.inLane = true ↔ ChapterId.ofKey e.1 ∈ dispatching.laneChapters) := by decide
    have hkey : ChapterId.ofKey (ChapterId.key ⟨th, n⟩) = ⟨th, n⟩ := by
      simp only at hc
      simp only [ChapterId.ofKey, ChapterId.key, ChapterId.mk.injEq]
      omega
    have := hall _ hm
    rw [hkey] at this
    exact this
  · intro hr hk
    revert hk
    fin_cases i <;> cases hr <;> (refine of_option (P := fun k => k.state = _) ?_ k; decide)

/-- The part with a published set for each published chapter, about to dispatch. -/
def agreeing : State := { dispatching with rendMem := ⟨[9], [(132, set4), (134, ⟨6, [⟨0, [8], 100⟩]⟩)], []⟩ }

theorem witness_StepsKeepPublished : agreeing.TableLaw ∧ agreeing.RenderLaw ∧ agreeing.PublishedLaw ∧ agreeing.HoldLaw ∧
    step agreeing = .next (after .dispatch { agreeing with pending := [] }) := by
  refine ⟨by unfold State.TableLaw; decide, witness_StepsKeepRenders.1, ⟨fun n k hk => ?_, fun n set hs => ?_⟩, ?_, rfl⟩
  · have hall : ∀ e ∈ agreeing.chapters,
        (e.2.published = true ↔ e.2.serial ≠ 0) ∧ e.2.serial ≤ 65535 ∧ (e.2.stale = true → e.2.published = true) ∧
        (e.2.published = true → ∃ set ∈ Tab.look agreeing.rendMem.sets e.1, set.serial = e.2.serial) ∧
        (e.2.published = false → Tab.look agreeing.rendMem.sets e.1 = none) := by decide
    exact hall _ (Tab.mem_of_look hk)
  · have hall : ∀ e ∈ agreeing.rendMem.sets, ∃ k ∈ Tab.look agreeing.chapters e.1, True := by decide
    obtain ⟨k, hk, -⟩ := hall _ (Tab.mem_of_look hs)
    exact ⟨k, hk⟩
  · intro e he
    obtain rfl : e = (1, ⟨.a, ⟨1, 4⟩, 0, 5, 0, none⟩) := by
      revert e; decide
    exact ⟨by decide, published .done 5 false, set4, ⟨0, [7], 100⟩, by decide, rfl, rfl, by decide, rfl, by decide⟩

/-- Take memory of 32,768 groups: take 4 owns group 1, which one segment touches, and every other group is dirty. -/
def mapped : TakeMemory :=
  { whole with groups := ⟨.dirty, none, none, 0, false⟩ :: owned 4 1 1 :: List.replicate 32766 ⟨.dirty, none, none, 0, false⟩ }

/-- The part with that take memory and a chapter that touches group 1, about to start an erase. -/
def counted : State :=
  { part with chapters := [(129, chapter .draft [⟨4, 262144, 4800, 0, 0, 0⟩])], takeMem := mapped, pending := [.eraseStart] }

theorem getD_rest {α : Type} (a b x y : α) (n g : Nat) (h : g < n) : (a :: b :: List.replicate n x).getD (g + 2) y = x := by
  simp [List.getD, h]

theorem mapped_group (g : Nat) (h : g < 32768) : mapped.group g = if g = 1 then owned 4 1 1 else ⟨.dirty, none, none, 0, false⟩ := by
  match g, h with
  | 0, _ => rfl
  | 1, _ => rfl
  | g + 2, h => exact (getD_rest _ _ _ _ _ _ (by omega)).trans (if_neg (by omega)).symm

theorem length_rest {α : Type} (a b x : α) (n : Nat) : (a :: b :: List.replicate n x).length = n + 2 := by simp

theorem mapped_length : mapped.groups.length = 32768 := length_rest _ _ _ _

theorem mapped_dirty (g : Nat) (h : g < 32768) : g ∈ mapped.dirty ↔ g ≠ 1 := by
  have : g ∈ mapped.dirty ↔ g = 0 ∨ g ∈ List.range' 2 32766 := List.mem_cons
  rw [this, List.mem_range'_1]
  omega

theorem counted_groups : counted.GroupLaw := by
  obtain ⟨-, h⟩ := whole_law { part with takeMem := whole } rfl
  exact ⟨rfl, h⟩

theorem mapped_take (id : Nat) (t : Take) : Tab.look mapped.takes id = some t ↔
    id = 4 ∧ t = ⟨1, .faulted, 300, some 1024, [none, some 1], none⟩ := by
  show (if 4 = id then some _ else none) = some t ↔ _
  split
  · next h => simp [eq_comm, h]
  · next h => simp [Ne.symm h]

theorem witness_StepsKeepGroupMap : counted.GroupLaw ∧ counted.MapLaw ∧
    step counted = .next (after .eraseStart { counted with pending := [] }) := by
  refine ⟨counted_groups, ⟨mapped_length, fun g hg => ?_⟩, rfl⟩
  show ((mapped.group g).state = .clean ↔ g ∈ []) ∧ ((mapped.group g).state = .dirty ↔ g ∈ mapped.dirty) ∧
    ((mapped.group g).state = .erasing ↔ none = some g) ∧ ((mapped.group g).state = .bad ↔ g ∈ []) ∧
    (∀ id i, ((mapped.group g).owner = some id ∧ (mapped.group g).index = some i) ↔
      ∃ t, Tab.look mapped.takes id = some t ∧ t.groups[i]? = some (some g)) ∧
    ((mapped.group g).state = .owned ↔ ((mapped.group g).owner ≠ none ∧ (mapped.group g).index ≠ none)) ∧
    ((mapped.group g).state ≠ .owned →
      (mapped.group g).owner = none ∧ (mapped.group g).index = none ∧ (mapped.group g).faulted = false)
  rw [mapped_group g hg, mapped_dirty g hg]
  simp only [mapped_take]
  by_cases h : g = 1
  · subst h
    refine ⟨by decide, by decide, by decide, by decide, fun id i => ⟨?_, ?_⟩, by decide, by decide⟩
    · rintro ⟨h1, h2⟩
      cases h1; cases h2
      exact ⟨_, ⟨rfl, rfl⟩, rfl⟩
    · rintro ⟨t, ⟨rfl, rfl⟩, h⟩
      match i, h with
      | 1, _ => exact ⟨rfl, rfl⟩
  · rw [if_neg h]
    refine ⟨by simp, by simp [h], by simp, by simp, fun id i => ⟨by simp, ?_⟩, by simp, by simp⟩
    rintro ⟨t, ⟨rfl, rfl⟩, hi⟩
    match i, hi with
    | 1, hi => cases hi; exact absurd rfl h

theorem witness_StepsKeepReferences : counted.GroupLaw ∧ counted.TableLaw ∧ counted.ProgramLaw ∧ counted.SpanLaw ∧ counted.CountLaw ∧
    step counted = .next (after .eraseStart { counted with pending := [] }) := by
  refine ⟨counted_groups, ⟨rfl, rfl, rfl, rfl, rfl⟩, ⟨?_, ?_⟩, ⟨?_, ?_⟩, ⟨mapped_length, fun g hg => ?_⟩, rfl⟩
  · intro p o take block data h
    cases p <;> cases h
  · intro p q o u take b b' d d' h
    cases p <;> cases h
  · intro e he g hg
    obtain rfl : e = (129, chapter .draft [⟨4, 262144, 4800, 0, 0, 0⟩]) := List.mem_singleton.mp he
    obtain rfl : g = ⟨4, 262144, 4800, 0, 0, 0⟩ := List.mem_singleton.mp hg
    refine ⟨⟨1, .faulted, 300, some 1024, [none, some 1], none⟩, rfl, by decide, by decide, by decide, by decide, by decide,
      by decide, by decide, fun i h1 h2 => ⟨1, ?_⟩⟩
    obtain rfl : i = 1 := by simp only at h1 h2; omega
    rfl
  · intro e he r hr
    have hall : ∀ e ∈ counted.titles, e.2.roomTone = none := by decide
    rw [hall e he] at hr
    cases hr
  · have hr : counted.references = [1] := by decide
    rw [hr]
    show (mapped.group g).refs = _
    rw [mapped_group g hg]
    by_cases h : g = 1
    · subst h; rfl
    · rw [if_neg h]
      simp [Ne.symm h]

end Sys2Proof.Tests
end

section
/-! SUPPORT. Changes that go over a list: what each of them leaves, all of them leave; and what the operations of take memory
leave. -/

namespace Sys2Proof.Machine

/-- What every change of a list of changes leaves as it is, the whole list leaves. -/
theorem foldl_unchanged {σ α β : Type} {f : σ → β} {g : σ → α → σ} (h : ∀ m x, f (g m x) = f m) (xs : List α)
    (m : σ) : f (xs.foldl g m) = f m := by
  induction xs generalizing m with
  | nil => rfl
  | cons x xs ih => rw [List.foldl_cons, ih, h]

/-- What every change of a list of changes keeps true, the whole list keeps true. -/
theorem foldl_keeps {σ α : Type} {P : σ → Prop} {g : σ → α → σ} (h : ∀ m x, P m → P (g m x)) (xs : List α) {m : σ}
    (hm : P m) : P (xs.foldl g m) := by
  induction xs generalizing m with
  | nil => exact hm
  | cons x xs ih => exact ih (h m x hm)

/-! ### Take memory: groups released, and counts moved -/

@[simp] theorem TakeMemory.release_takes (m : TakeMemory) (g : Nat) : (m.release g).takes = m.takes := by
  unfold TakeMemory.release; split <;> rfl

@[simp] theorem TakeMemory.release_mem (m : TakeMemory) (g : Nat) : (m.release g).mem = m.mem := by
  unfold TakeMemory.release; split <;> rfl

@[simp] theorem TakeMemory.releaseAll_takes (m : TakeMemory) (gs : List Nat) : (m.releaseAll gs).takes = m.takes :=
  foldl_unchanged (f := TakeMemory.takes) release_takes gs m

@[simp] theorem TakeMemory.releaseAll_mem (m : TakeMemory) (gs : List Nat) : (m.releaseAll gs).mem = m.mem :=
  foldl_unchanged (f := TakeMemory.mem) release_mem gs m

@[simp] theorem TakeMemory.raise_takes (m : TakeMemory) (gs : List Nat) : (m.raise gs).takes = m.takes :=
  foldl_unchanged (f := TakeMemory.takes) (g := TakeMemory.changeRefs (· + 1)) (fun _ _ => rfl) gs m

@[simp] theorem TakeMemory.raise_mem (m : TakeMemory) (gs : List Nat) : (m.raise gs).mem = m.mem :=
  foldl_unchanged (f := TakeMemory.mem) (g := TakeMemory.changeRefs (· + 1)) (fun _ _ => rfl) gs m

@[simp] theorem TakeMemory.lower_takes (m : TakeMemory) (gs : List Nat) : (m.lower gs).takes = m.takes :=
  foldl_unchanged (f := TakeMemory.takes) (g := TakeMemory.changeRefs (· - 1)) (fun _ _ => rfl) gs m

@[simp] theorem TakeMemory.lower_mem (m : TakeMemory) (gs : List Nat) : (m.lower gs).mem = m.mem :=
  foldl_unchanged (f := TakeMemory.mem) (g := TakeMemory.changeRefs (· - 1)) (fun _ _ => rfl) gs m

end Sys2Proof.Machine
end

section
/-! SUPPORT. The canonical forms, block by block: every operation on a block keeps them, and so does everything that the part
can do. -/

namespace Sys2Proof.Machine

/-- The bytes and the take table of take memory are in canonical form. -/
def TakeMemory.Canonical (m : TakeMemory) : Prop := Memory.wf m.mem = true ∧ Tab.wf m.takes = true

/-- The bytes and the published sets of rendition memory are in canonical form. -/
def RenditionMemory.Canonical (m : RenditionMemory) : Prop := Memory.wf m.mem = true ∧ Tab.wf m.sets = true

/-- `State.MemoryLaw` and `State.TableLaw` (see `State.canonical_iff`), block by block. -/
structure State.Canonical (s : State) : Prop where
  titles   : Tab.wf s.titles = true
  chapters : Tab.wf s.chapters = true
  takeMem  : s.takeMem.Canonical
  rendMem  : s.rendMem.Canonical
  holds    : Tab.wf s.holdTable.holds = true

theorem State.canonical_iff {s : State} : s.Canonical ↔ s.MemoryLaw ∧ s.TableLaw := by
  constructor
  · rintro ⟨ht, hc, ⟨hm, hk⟩, ⟨hr, hs⟩, hh⟩
    exact ⟨⟨hm, hr⟩, ht, hc, hk, hs, hh⟩
  · rintro ⟨⟨hm, hr⟩, ht, hc, hk, hs, hh⟩
    exact ⟨ht, hc, ⟨hm, hk⟩, ⟨hr, hs⟩, hh⟩

/-! ### Take memory -/

namespace TakeMemory.Canonical

variable {m : TakeMemory}

/-- The canonical form is about the bytes and the take table alone. -/
theorem congr {n : TakeMemory} (h : m.Canonical) (hm : n.mem = m.mem) (ht : n.takes = m.takes) : n.Canonical := by
  unfold TakeMemory.Canonical
  rw [hm, ht]
  exact h

theorem setTake (h : m.Canonical) (id : Nat) (t : Take) : (m.setTake id t).Canonical := ⟨h.1, Tab.wf_put _ _ h.2⟩

theorem release (h : m.Canonical) (g : Nat) : (m.release g).Canonical := h.congr (by simp) (by simp)

theorem releaseAll (h : m.Canonical) (gs : List Nat) : (m.releaseAll gs).Canonical := h.congr (by simp) (by simp)

theorem raise (h : m.Canonical) (gs : List Nat) : (m.raise gs).Canonical := h.congr (by simp) (by simp)

theorem lower (h : m.Canonical) (gs : List Nat) : (m.lower gs).Canonical := h.congr (by simp) (by simp)

theorem startBlock (h : m.Canonical) (take : Nat) (t : Take) (block : Nat) : (m.startBlock take t block).Canonical := by
  unfold TakeMemory.startBlock
  refine setTake ?_ _ _
  unfold drawForBlock
  split
  · exact h
  · exact h

theorem discardAt (h : m.Canonical) (take i : Nat) : (TakeMemory.discardAt take m i).Canonical := by
  unfold TakeMemory.discardAt
  split
  · exact h
  · split
    · exact (h.release _).setTake _ _
    · exact h

theorem discardRun (h : m.Canonical) (take first last : Nat) : (m.discardRun take first last).Canonical :=
  foldl_keeps (P := TakeMemory.Canonical) (fun _ i h => discardAt h take i) _ h

theorem blockDone (h : m.Canonical) (take : Nat) (t : Take) (block : Nat) (data : List Byte) :
    (m.blockDone take t block data).Canonical := by
  refine ⟨?_, Tab.wf_put _ _ h.2⟩
  unfold TakeMemory.blockDone
  dsimp only
  split
  · exact h.1
  · exact Memory.wf_writeBytes _ _ h.1

theorem eraseStart (h : m.Canonical) : m.eraseStart.Canonical := by
  unfold TakeMemory.eraseStart
  split
  · exact h
  · exact h

theorem eraseDone (h : m.Canonical) : m.eraseDone.Canonical := by
  unfold TakeMemory.eraseDone
  split
  · exact h
  · exact ⟨Memory.wf_clear _ _ h.1, h.2⟩

theorem eraseFailed (h : m.Canonical) : m.eraseFailed.Canonical := by
  unfold TakeMemory.eraseFailed
  split
  · exact h
  · exact h

end TakeMemory.Canonical

/-! ### Rendition memory -/

namespace RenditionMemory.Canonical

variable {m : RenditionMemory}

theorem publish (h : m.Canonical) (c : ChapterId) (serial : Nat) (es : List Encoder) : (m.publish c serial es).Canonical :=
  ⟨Memory.wf_foldl (fun _ _ h => wf_writeImage _ _ _ h) es h.1, Tab.wf_put _ _ h.2⟩

theorem withHeaders (h : m.Canonical) (catalogue : Nat) (r : Render) (gain : GainRecord) (saturated : Nat) (es : List Encoder) :
    RenditionMemory.Canonical { m with mem := writeHeaders m.mem catalogue r gain saturated es } :=
  ⟨Memory.wf_foldl (fun _ _ h => wf_writeImage _ _ _ h) es h.1, h.2⟩

theorem withFrames (h : m.Canonical) (pool : List Nat) (voiced : Bool) (ys : List Int) (es : List Encoder) :
    RenditionMemory.Canonical { m with pool := pool, mem := writeFrames m.mem voiced ys es } :=
  ⟨Memory.wf_foldl (fun _ _ h => wf_writeImage _ _ _ h) es h.1, h.2⟩

end RenditionMemory.Canonical

/-! ### The part -/

namespace State.Canonical

variable {s : State}

theorem setTakeMem (h : s.Canonical) {m : TakeMemory} (hm : m.Canonical) : (s.setTakeMem m).Canonical := { h with takeMem := hm }

theorem setTitle (h : s.Canonical) (th : Nat) (t : Title) : (s.setTitle th t).Canonical :=
  { h with titles := Tab.wf_put _ _ h.titles }

theorem setChapter (h : s.Canonical) (c : ChapterId) (k : Chapter) : (s.setChapter c k).Canonical :=
  { h with chapters := Tab.wf_put _ _ h.chapters }

theorem changeChapter (h : s.Canonical) (c : ChapterId) (f : Chapter → Chapter) : (s.changeChapter c f).Canonical :=
  { h with chapters := Tab.wf_change _ _ h.chapters }

theorem markStale (h : s.Canonical) (th : Nat) : (s.markStale th).Canonical :=
  { h with chapters := Tab.wf_map _ (fun e => by split <;> rfl) h.chapters }

theorem setHold (h : s.Canonical) (slot : Nat) (x : Hold) : (s.setHold slot x).Canonical :=
  { h with holds := Tab.wf_put _ _ h.holds }

theorem dropTake (h : s.Canonical) (id : Nat) : (s.dropTake id).Canonical :=
  { h with takeMem := ⟨h.takeMem.1, Tab.wf_drop _ h.takeMem.2⟩ }

theorem moveTone (h : s.Canonical) (th : Nat) (t : Title) (r : Option RoomSpan) : (s.moveTone th t r).Canonical :=
  { h with titles := Tab.wf_put _ _ h.titles, takeMem := (h.takeMem.raise _).lower _ }

/-! How renders and holds end. -/

theorem endLane (h : s.Canonical) (i : Fin 4) (mark : Render → LastEnd) : (s.endLane i mark).Canonical := by
  unfold State.endLane
  split
  · exact h
  · exact { h with }

theorem endRender (h : s.Canonical) (c : ChapterId) (way : EndWay) : (s.endRender c way).Canonical := by
  unfold State.endRender
  split
  · exact h
  · exact h.endLane _ _

theorem failRender (h : s.Canonical) (i : Fin 4) (cause : FailCause) (group position : Option Nat) :
    (s.failRender i cause group position).Canonical := by
  unfold State.failRender
  split
  · exact h
  · exact { h.endLane _ _ with chapters := Tab.wf_change _ _ (h.endLane _ _).chapters }

theorem commit (h : s.Canonical) (i : Fin 4) : (s.commit i).Canonical := by
  unfold State.commit
  split
  · exact h
  · exact { h with chapters := Tab.wf_change _ _ h.chapters, rendMem := h.rendMem.publish _ _ _ }

theorem releaseCommit (h : s.Canonical) (c : ChapterId) : (s.releaseCommit c).Canonical := by
  unfold State.releaseCommit
  split
  · exact h
  · split
    · split
      · exact h.commit _
      · exact h
    · exact h

theorem endHold (h : s.Canonical) (slot : Nat) : (s.endHold slot).Canonical := by
  unfold State.endHold
  split
  · exact h
  · next x _ =>
    have hd : State.Canonical { s with holdTable := { s.holdTable with holds := Tab.drop s.holdTable.holds slot } } :=
      { h with holds := Tab.wf_drop _ h.holds }
    exact hd.releaseCommit x.chapter

theorem changePort (h : s.Canonical) (p : Port) (f : PortRecord → PortRecord) : (s.changePort p f).Canonical := { h with }

theorem resetPort (h : s.Canonical) (p : Port) : (s.resetPort p).Canonical :=
  foldl_keeps (P := State.Canonical) (fun _ slot h => endHold h slot) _ (h.changePort p _)

/-! What the requests do. -/

theorem editChapter (h : s.Canonical) (c : ChapterId) (k : Chapter) : (s.editChapter c k).Canonical := by
  unfold State.editChapter
  dsimp only
  split
  · exact { (h.setChapter c _).endRender c .aborted with }
  · exact h.setChapter _ _

theorem unqueue (h : s.Canonical) (c : ChapterId) (k : Chapter) (way : EndWay) : (s.unqueue c k way).Canonical := by
  unfold State.unqueue
  dsimp only
  split
  · split
    · exact { h with }
    · exact { h.endRender c way with }
  · exact h

theorem eraseChapter (h : s.Canonical) (c : ChapterId) (k : Chapter) : (s.eraseChapter c k).Canonical :=
  { h with
    chapters := Tab.wf_drop _ h.chapters
    takeMem := h.takeMem.lower _
    rendMem := ⟨h.rendMem.1, Tab.wf_drop _ h.rendMem.2⟩ }

theorem retirePlan (h : s.Canonical) (th : Nat) (t : Title) : (s.retirePlan th t).Canonical :=
  { h with
    chapters := Tab.wf_filter _ h.chapters
    takeMem := h.takeMem.lower _
    rendMem := ⟨h.rendMem.1, Tab.wf_filter _ h.rendMem.2⟩ }

theorem retireTake (h : s.Canonical) (e : Nat × Take) : (s.retireTake e).Canonical :=
  (h.setTakeMem (h.takeMem.releaseAll _)).dropTake _

theorem retire (h : s.Canonical) (th : Nat) (t : Title) : (s.retire th t).Canonical := by
  have hk := foldl_keeps (P := State.Canonical) (fun _ e h => retireTake h e) ((s.retirePlan th t).titleTakes th)
    (h.retirePlan th t)
  exact { hk with titles := Tab.wf_drop _ hk.titles }

theorem commitDiscard (h : s.Canonical) (p : Port) (take first last : Nat) : (s.commitDiscard p take first last).Canonical := by
  have hr : ((s.setTakeMem (s.takeMem.discardRun take first last)).setSequence p .none).Canonical :=
    { h with takeMem := h.takeMem.discardRun _ _ _ }
  unfold State.commitDiscard
  dsimp only
  split
  · exact hr.dropTake _
  · exact hr

/-- Requests keep the canonical forms. -/
theorem change {p : Port} {t : State} (hc : Change p s t) (h : s.Canonical) : t.Canonical := by
  cases hc with
  | same => exact h
  | registered => exact h.setTitle _ _
  | titleState => exact h.setTitle _ _
  | titleParams => exact (h.setTitle _ _).markStale _
  | tone => exact (h.moveTone _ _ _).markStale _
  | retired => exact h.retire _ _
  | defined => exact h.setChapter _ _
  | deleted => exact (h.unqueue _ _ _).eraseChapter _ _
  | edited => exact (h.setTakeMem ((h.takeMem.raise _).lower _)).editChapter _ _
  | queued => exact { h.setChapter _ _ with }
  | cancelled => exact (h.unqueue _ _ _).setChapter _ _
  | wheel => exact { h with }
  | lanes => exact { h with }
  | limit => exact { h with }
  | opened => exact { h with holds := Tab.wf_put _ _ h.holds }
  | reading => exact h.setHold _ _
  | closed => exact h.endHold _
  | popped => exact h.changePort _ _
  | masked => exact h.changePort _ _
  | portReset => exact h.resetPort _
  | takeOpened => exact h.setTakeMem (h.takeMem.setTake _ _)
  | writing => exact h.setTakeMem (h.takeMem.startBlock _ _ _)
  | takeFreed => exact (h.setTakeMem (h.takeMem.releaseAll _)).dropTake _
  | takeClosed => exact h.setTakeMem (h.takeMem.setTake _ _)
  | sequence => exact { h with }
  | discarded => exact h.commitDiscard _ _ _ _

/-! What the units inside the part do. -/

theorem blockFailed (h : s.Canonical) (take : Nat) (t : Take) (block g : Nat) : (s.blockFailed take t block g).Canonical := by
  have hg : (s.takeMem.setGroup g { s.takeMem.group g with faulted := true }).Canonical := h.takeMem
  unfold State.blockFailed
  dsimp only
  split
  · exact (h.setTakeMem (hg.releaseAll _)).dropTake _
  · split
    · exact h.setTakeMem ((hg.release g).setTake _ _)
    · exact h.setTakeMem (hg.setTake _ _)

theorem dispatchTo (h : s.Canonical) (i : Fin 4) (c : ChapterId) (origin : Priority) (q : RenderQueue) :
    (s.dispatchTo i c origin q).Canonical := by
  unfold State.dispatchTo
  split
  · exact { h with chapters := Tab.wf_put _ _ h.chapters }
  · exact h

theorem dispatchOne (h : s.Canonical) : s.dispatchOne.Canonical := by
  unfold State.dispatchOne
  split
  · exact h
  · split
    · exact h.dispatchTo _ _ _ _
    · exact h.dispatchTo _ _ _ _
    · exact h

theorem setRender (h : s.Canonical) (i : Fin 4) (r : Render) : (s.setRender i r).Canonical := { h with }

theorem failRead (h : s.Canonical) (i : Fin 4) (r : Render) (g : Nat) : (s.failRead i r g).Canonical :=
  failRender (s := { s with takeMem := s.takeMem.markFaulted g }) { h with } _ _ _ _

theorem measured (h : s.Canonical) (i : Fin 4) (r : Render) (held : Option HeldBlock) (m : Meter) :
    (s.measured i r held m).Canonical := by
  unfold State.measured
  split
  · exact (h.setRender _ _).changeChapter _ _
  · exact h.setRender _ _

theorem askCommit (h : s.Canonical) (i : Fin 4) (r : Render) (gain : GainRecord) (saturated : Nat) (es : List Encoder) :
    (s.askCommit i r gain saturated es).Canonical := by
  unfold State.askCommit
  split
  · exact (h.setRender _ _).changeChapter _ _
  · exact (h.setRender _ _).commit _

theorem endEncode (h : s.Canonical) (i : Fin 4) (r : Render) (gain : GainRecord) (saturated : Nat) (es : List Encoder) :
    (s.endEncode i r gain saturated es).Canonical := by
  have hw (q : Ports) (catalogue : Nat) : State.Canonical { s with
      ports := q, rendMem := { s.rendMem with mem := writeHeaders s.rendMem.mem catalogue r gain saturated es } } :=
    { h with rendMem := h.rendMem.withHeaders _ _ _ _ _ }
  exact (hw _ _).askCommit _ _ _ _ _

theorem takeFrame (h : s.Canonical) (i : Fin 4) (r : Render) (held : Option HeldBlock) (gain : GainRecord) (saturated : Nat)
    (es : List Encoder) (pool : List Nat) (voiced : Bool) (ys : List Int) :
    (s.takeFrame i r held gain saturated es pool voiced ys).Canonical := by
  have hf (q : Ports) : State.Canonical { s with
      ports := q, rendMem := { s.rendMem with pool := pool, mem := writeFrames s.rendMem.mem voiced ys es } } :=
    { h with rendMem := h.rendMem.withFrames _ _ _ _ }
  unfold State.takeFrame
  dsimp only
  split
  · exact (hf _).endEncode _ _ _ _ _
  · exact (hf _).setRender _ _

theorem encoded (h : s.Canonical) (i : Fin 4) (r : Render) (a : Assembly) (held : Option HeldBlock) (gain : GainRecord)
    (saturated : Nat) (es : List Encoder) (xs : List Int) : (s.encoded i r a held gain saturated es xs).Canonical := by
  unfold State.encoded
  dsimp only
  split
  · exact h.takeFrame _ _ _ _ _ _ _ _ _
  · next es' pool _ =>
    have hp : State.Canonical { s with rendMem := { s.rendMem with pool := pool } } := { h with }
    exact (hp.setRender _ _).failRender _ _ _ _

theorem progress (h : s.Canonical) {t : State} {i : Fin 4} {r : Render} {f : Option Nat} (ht : s.progress i r f = some t) :
    t.Canonical := by
  unfold State.progress at ht
  split at ht
  · split at ht
    · cases ht
    · cases ht; exact h.failRead _ _ _
    · cases ht; exact h.measured _ _ _ _
  · split at ht
    · cases ht
    · cases ht; exact h.failRead _ _ _
    · cases ht; exact h.encoded _ _ _ _ _ _ _ _
  · cases ht; exact h

theorem grantSlot (h : s.Canonical) {t : State} {f : Option Nat} (ht : s.grantSlot f = some t) : t.Canonical := by
  unfold State.grantSlot at ht
  split at ht
  · cases ht; exact h
  · split at ht
    · cases ht; exact h
    · split at ht
      · exact h.progress ht
      · cases ht; exact h

theorem clockStep (h : s.Canonical) : State.Canonical { s with holdTable := s.holdTable.clockStep } :=
  { h with holds := Tab.wf_map _ (fun e => by split <;> rfl) h.holds }

theorem expireHold (h : s.Canonical) : s.expireHold.Canonical := by
  unfold State.expireHold
  split
  · exact h
  · exact (h.changePort _ _).endHold _

theorem abandonAll (h : s.Canonical) : s.abandonAll.Canonical :=
  { h with
    takeMem := ⟨h.takeMem.1, Tab.wf_map _ (fun _ => rfl) h.takeMem.2⟩
    holds := Tab.wf_map _ (fun _ => rfl) h.holds }

/-- The reset values are in canonical form: every memory and every table is empty. -/
theorem restart (s : State) (cause : ResetCause) (ra rb rc : Role) : (s.restart cause ra rb rc).Canonical :=
  ⟨rfl, rfl, ⟨rfl, rfl⟩, ⟨rfl, rfl⟩, rfl⟩

/-- Every step keeps the canonical forms. -/
theorem kept : Kept State.Canonical where
  ports _ _ _ h := { h with }
  pending _ _ h := { h with }
  resetHeld _ _ h := { h with }
  change _ _ _ hc h := h.change hc
  endFetch _ _ h := { h with holds := Tab.wf_change _ _ h.holds }
  endHold _ slot h := h.endHold slot
  eraseStart _ h := h.setTakeMem h.takeMem.eraseStart
  eraseDone _ h := h.setTakeMem h.takeMem.eraseDone
  eraseFailed _ h := h.setTakeMem h.takeMem.eraseFailed
  dispatch _ h := h.dispatchOne
  slot _ _ _ ht h := h.grantSlot ht
  advance _ h := { h with }
  clock _ h := h.clockStep
  expire _ h := h.expireHold
  abandon _ h := h.abandonAll
  restart s cause ra rb rc _ := restart s cause ra rb rc
  blockDone _ take t block data _ h := h.setTakeMem (h.takeMem.blockDone take t block data)
  blockFailed _ take t block g _ _ h := h.blockFailed take t block g

end State.Canonical

end Sys2Proof.Machine

namespace Sys2Proof.Settled

open Sys2Proof.Machine

/-- Settles O52: the canonical forms, block by block, are a property that each thing the part can do keeps. -/
theorem stepsKeepCanonicalForms : Obligations.StepsKeepCanonicalForms := by
  unfold Obligations.StepsKeepCanonicalForms
  intro s t hm ht hs
  exact State.canonical_iff.1 (State.Canonical.kept.step hs (State.canonical_iff.2 ⟨hm, ht⟩))

end Sys2Proof.Settled
end

section
/-! SUPPORT. What the title requests answer: the checks that they share, one equation for each outcome, and the command of a
request whose answer is known. -/

namespace Sys2Proof.Machine

/-! ### The command of a request whose answer is known -/

/-- A request whose owner replies `res` and leaves the ports as it found them, `t` being what it leaves of the part. -/
theorem exec_answered {i : Instr} {p : Port} {tag : Byte} {r : Request} {s : State} {res : Result} (t : State)
    (hi : i.request? = some (p, tag, r)) (h : s.listens p) (ha : s.allows p (requestClass r)) (hf : formatOk r = true)
    (hd : isDiscard r = false) (hp : t.ports = s.ports)
    (hh : handle p r (s.heard p (operandLength r)) =
      (.reply res, { t with ports := (s.heard p (operandLength r)).ports })) :
    exec i s = .next (t.answered p tag (operandLength r) (s.marked p) res) := by
  rw [exec_request hi]
  exact request_answered r tag t res h ha hf hd hp hh

/-- A request whose owner replies `res` and leaves the part as it found it. -/
theorem exec_reads {i : Instr} {p : Port} {tag : Byte} {r : Request} {s : State} {res : Result}
    (hi : i.request? = some (p, tag, r)) (h : s.listens p) (ha : s.allows p (requestClass r)) (hf : formatOk r = true)
    (hd : isDiscard r = false)
    (hh : handle p r (s.heard p (operandLength r)) = (.reply res, s.heard p (operandLength r))) :
    exec i s = .next (s.answered p tag (operandLength r) (s.marked p) res) :=
  exec_answered s hi h ha hf hd rfl hh

/-! ### The title that a request resolves -/

/-- A handle that resolves is one of the four (R2). -/
theorem State.title_handle {s : State} {th : Nat} {t : Title} (h : s.title? th = some t) : 1 ≤ th ∧ th ≤ 4 := by
  unfold State.title? at h
  split at h
  · assumption
  · cases h

theorem withTitle_some {th : Nat} {s : State} {t : Title} {k : Title → Answer × State} (h : s.title? th = some t) :
    withTitle th s k = k t := by
  simp [withTitle, h]

theorem withOpenTitle_locked {th : Nat} {s : State} {t : Title} {k : Title → Answer × State} (h : s.title? th = some t)
    (hst : t.state ≠ .opened) : withOpenTitle th s k = refuse .locked s := by
  simp [withOpenTitle, withTitle_some h, hst]

theorem titleChange_locked {th : Nat} {s : State} {t : Title} {k : Title → Answer × State} (h : s.title? th = some t)
    (hst : t.state ≠ .opened) : titleChange th s k = refuse .locked s := by
  simp [titleChange, withTitle_some h, hst]

theorem titleChange_busy {th : Nat} {s : State} {t : Title} {k : Title → Answer × State} (h : s.title? th = some t)
    (hst : t.state = .opened) (hl : s.titleInLane th = true) : titleChange th s k = refuse .busy s := by
  simp [titleChange, withTitle_some h, hst, hl]

theorem titleChange_taken {th : Nat} {s : State} {t : Title} {k : Title → Answer × State} (h : s.title? th = some t)
    (hst : t.state = .opened) (hl : s.titleInLane th = false) : titleChange th s k = k t := by
  simp [titleChange, withTitle_some h, hst, hl]

/-- R5 step 3: a chapter of the title that is in a lane. -/
theorem State.titleInLane_of_mem {s : State} {th : Nat} {e : Nat × Chapter} (he : e ∈ s.chapters) (hth : e.1 / 128 = th)
    (hl : e.2.state.inLane = true) : s.titleInLane th = true :=
  List.any_eq_true.2 ⟨e, List.mem_filter.2 ⟨he, by simpa using hth⟩, hl⟩

theorem ChapterState.inLane_iff (st : ChapterState) :
    st.inLane = true ↔ st = .measuring ∨ st = .encoding ∨ st = .commitWait := by
  cases st <;> simp [ChapterState.inLane]

/-! ### HOLD-TITLE and RELEASE-TITLE, by the state of the title -/

section
variable {th : Nat} {s : State} {t : Title}

theorem holdTitle_opened (h : s.title? th = some t) (hst : t.state = .opened) :
    holdTitle th s = accept (le 1 TitleState.held.code) (s.setTitle th { t with state := .held }) := by
  simp only [holdTitle, withTitle_some h, hst]

theorem holdTitle_held (h : s.title? th = some t) (hst : t.state = .held) :
    holdTitle th s = accept (le 1 TitleState.held.code) s := by
  simp only [holdTitle, withTitle_some h, hst]

theorem holdTitle_final (h : s.title? th = some t) (hst : t.state = .final) : holdTitle th s = refuse .locked s := by
  simp only [holdTitle, withTitle_some h, hst]

theorem releaseTitle_held (h : s.title? th = some t) (hst : t.state = .held) :
    releaseTitle th s = accept (le 1 TitleState.opened.code) (s.setTitle th { t with state := .opened }) := by
  simp only [releaseTitle, withTitle_some h, hst]

theorem releaseTitle_opened (h : s.title? th = some t) (hst : t.state = .opened) :
    releaseTitle th s = accept (le 1 TitleState.opened.code) s := by
  simp only [releaseTitle, withTitle_some h, hst]

theorem releaseTitle_final (h : s.title? th = some t) (hst : t.state = .final) : releaseTitle th s = refuse .locked s := by
  simp only [releaseTitle, withTitle_some h, hst]

end

/-! ### LOCKED and BUSY -/

/-- R11: the owner of a request that its title's state refuses. -/
theorem handle_locked {p : Port} {r : Request} {s : State} {t : Title} (h : s.title? (titleByte r) = some t)
    (hl : lockedIn t.state r = true) : handle p r s = refuse .locked s := by
  cases r with
  | setTitleParams | setProfile | setProfileCount | setRoomTone | clearRoomTone =>
    exact titleChange_locked h (of_decide_eq_true hl)
  | defineChapter | deleteChapter | setChapterPads | insertSegment | replaceSegment | removeSegment =>
    exact withOpenTitle_locked h (of_decide_eq_true hl)
  | openTake | discardCommit | queueRender => exact (withTitle_some h).trans (if_pos (of_decide_eq_true hl))
  | holdTitle => exact holdTitle_final h (of_decide_eq_true hl)
  | releaseTitle => exact releaseTitle_final h (of_decide_eq_true hl)
  | _ => cases hl

/-- R5 step 3: the owner of a title-level change of an OPEN title with a chapter in a lane. -/
theorem handle_busy {p : Port} {r : Request} {s : State} {t : Title} (h : s.title? (titleByte r) = some t)
    (hst : t.state = .opened) (hc : isTitleChange r = true) (hl : s.titleInLane (titleByte r) = true) :
    handle p r s = refuse .busy s := by
  cases r with
  | setTitleParams | setProfile | setProfileCount | setRoomTone | clearRoomTone => exact titleChange_busy h hst hl
  | _ => cases hc

theorem formatOk_of_lockedIn {st : TitleState} {r : Request} (h : lockedIn st r = true) : formatOk r = true := by
  cases r with
  | writeBlock => cases h
  | _ => rfl

theorem isTitleChange_spec {r : Request} (h : isTitleChange r = true) :
    requestClass r = .plan ∧ formatOk r = true ∧ isDiscard r = false := by
  cases r with
  | setTitleParams | setProfile | setProfileCount | setRoomTone | clearRoomTone => exact ⟨rfl, rfl, rfl⟩
  | _ => cases h

/-! ### REGISTER-TITLE -/

/-- The lowest of the four handles that passes a test. -/
theorem find_lowest_handle {f : Nat → Bool} {h : Nat} (h1 : 1 ≤ h) (h4 : h ≤ 4) (hf : f h = true)
    (hlow : ∀ h', 1 ≤ h' → h' < h → f h' = false) : [1, 2, 3, 4].find? f = some h := by
  refine List.find?_eq_some_iff_append.2 ⟨hf, ?_⟩
  obtain rfl | rfl | rfl | rfl : h = 1 ∨ h = 2 ∨ h = 3 ∨ h = 4 := by omega
  · exact ⟨[], [2, 3, 4], rfl, by simp⟩
  · exact ⟨[1], [3, 4], rfl, by simp [hlow]⟩
  · exact ⟨[1, 2], [4], rfl, by simp [hlow]⟩
  · exact ⟨[1, 2, 3], [], rfl, by simp [hlow]⟩

/-- R3: the record that holds the number. -/
theorem State.handleOf_eq_some {s : State} {n h : Nat} {t : Title} (ht : s.title? h = some t) (hn : t.catalogue = n)
    (hlow : ∀ h' t', h' < h → s.title? h' = some t' → t'.catalogue ≠ n) : s.handleOf n = some h := by
  obtain ⟨h1, h4⟩ := State.title_handle ht
  refine find_lowest_handle h1 h4 (by simp [ht, hn]) fun h' _ hlt => ?_
  cases ht' : s.title? h' with
  | none => simp
  | some t' => simpa using hlow h' t' hlt ht'

theorem State.handleOf_eq_none {s : State} {n : Nat} (hn : ∀ h t, s.title? h = some t → t.catalogue ≠ n) :
    s.handleOf n = none := by
  refine List.find?_eq_none.2 fun h _ => ?_
  cases ht : s.title? h with
  | none => simp
  | some t => simpa using hn h t ht

theorem State.freeHandle_eq_some {s : State} {h : Nat} (h1 : 1 ≤ h) (h4 : h ≤ 4) (hf : s.title? h = none)
    (hlow : ∀ h', 1 ≤ h' → h' < h → s.title? h' ≠ none) : s.freeHandle = some h :=
  find_lowest_handle h1 h4 (by simp [hf]) fun h' h1' hlt => by
    simpa [Option.isSome_iff_ne_none] using hlow h' h1' hlt

theorem State.freeHandle_eq_none {s : State} (h : ∀ h, 1 ≤ h → h ≤ 4 → s.title? h ≠ none) : s.freeHandle = none := by
  refine List.find?_eq_none.2 fun k hk => ?_
  have hr : 1 ≤ k ∧ k ≤ 4 := by simp only [List.mem_cons, List.not_mem_nil, or_false] at hk; omega
  simpa using h k hr.1 hr.2

theorem registerTitle_existing {n h : Nat} {s : State} {t : Title} (hn : n ≠ 0) (hh : s.handleOf n = some h)
    (ht : s.title? h = some t) :
    registerTitle n s = accept (le 1 h ++ le 1 t.state.code) s { existing := true } := by
  simp [registerTitle, hn, hh, ht]

theorem registerTitle_full {n : Nat} {s : State} (hn : n ≠ 0) (hh : s.handleOf n = none) (hf : s.freeHandle = none) :
    registerTitle n s = refuse .full s := by
  simp [registerTitle, hn, hh, hf]

theorem registerTitle_new {n h : Nat} {s : State} (hn : n ≠ 0) (hh : s.handleOf n = none) (hf : s.freeHandle = some h) :
    registerTitle n s = accept (le 1 h ++ le 1 TitleState.opened.code) (s.setTitle h (newTitle n)) := by
  simp [registerTitle, hn, hh, hf]

/-- The byte of a title state, as R187 gives it. -/
theorem le_titleState (st : TitleState) :
    le 1 st.code = [match st with | .opened => 1#8 | .held => 2#8 | .final => 3#8] := by
  cases st <;> rfl

/-! ### SET-TITLE-PARAMS, SET-PROFILE and SET-PROFILE-COUNT -/

/-- R6: a field after a SET-TITLE-PARAMS, its range being `lo` to `hi`. -/
theorem namedField_eq {lo hi : Int} (h : lo ≤ hi) (mask : Byte) (b : Nat) (x old : Int) :
    namedField mask b lo hi x old = if mask.getLsbD b then max lo (min hi x) else old := by
  rw [namedField, clamp_eq lo hi x h]

/-- R6: a named field is changed by clamping exactly when its value is outside its range. -/
theorem namedField_changed {lo hi : Int} (h : lo ≤ hi) (mask : Byte) (b : Nat) (x old : Int) :
    (mask.getLsbD b && decide (namedField mask b lo hi x old ≠ x)) =
      decide (mask.getLsbD b = true ∧ (x < lo ∨ hi < x)) := by
  rw [namedField_eq h]
  cases hb : mask.getLsbD b with
  | false => simp
  | true =>
    simp only [if_true, Bool.true_and, true_and]
    exact decide_eq_decide.2 (by omega)

theorem loudnessClamped_eq (mask : Byte) (v old : Loudness) :
    loudnessClamped mask v old = decide (
      (mask.getLsbD 0 = true ∧ (v.target < -300 ∨ -120 < v.target)) ∨
      (mask.getLsbD 1 = true ∧ (v.tolerance < 0 ∨ 100 < v.tolerance)) ∨
      (mask.getLsbD 2 = true ∧ (v.ceiling < -100 ∨ 0 < v.ceiling)) ∨
      (mask.getLsbD 3 = true ∧ (v.absGate < -900 ∨ -300 < v.absGate)) ∨
      (mask.getLsbD 4 = true ∧ (v.silence < -900 ∨ -200 < v.silence))) := by
  have h0 := namedField_changed (show (-300 : Int) ≤ -120 by decide) mask 0 v.target old.target
  have h1 := namedField_changed (show (0 : Int) ≤ 100 by decide) mask 1 v.tolerance old.tolerance
  have h2 := namedField_changed (show (-100 : Int) ≤ 0 by decide) mask 2 v.ceiling old.ceiling
  have h3 := namedField_changed (show (-900 : Int) ≤ -300 by decide) mask 3 v.absGate old.absGate
  have h4 := namedField_changed (show (-900 : Int) ≤ -200 by decide) mask 4 v.silence old.silence
  simp only [Bool.decide_or, ← h0, ← h1, ← h2, ← h3, ← h4, ← Bool.or_assoc]
  rfl

/-- R7: the ranges of the profile fields, in the rule's words. -/
theorem Profile.inRange_iff (f : Profile) :
    Profile.inRange f = true ↔ (8 ≤ f.bmin ∧ f.bmin ≤ 64) ∧ (f.bmin ≤ f.bsus ∧ 16 ≤ f.bsus ∧ f.bsus ≤ 1024) ∧
      (f.bsus ≤ f.bpeak ∧ f.bpeak ≤ 2048) ∧ f.cmax ≤ 65535 ∧ f.ts ≤ f.cmax ∧ (1 ≤ f.d ∧ f.d ≤ 65535) := by
  simp only [Profile.inRange, Bool.and_eq_true, decide_eq_true_eq, Nat.max_le, and_assoc]

theorem setProfile_refused {th n : Nat} {f : Profile} {s : State} {t : Title} (h : s.title? th = some t)
    (hst : t.state = .opened) (hl : s.titleInLane th = false) (hr : ¬ (n < t.profiles.length ∧ Profile.inRange f = true)) :
    setProfile th n f s = refuse .range s := by
  refine (titleChange_taken h hst hl).trans (if_pos ?_)
  rw [not_and_or, Bool.not_eq_true] at hr
  exact hr.imp_left Nat.le_of_not_lt

theorem setProfile_taken {th n : Nat} {f : Profile} {s : State} {t : Title} (h : s.title? th = some t)
    (hst : t.state = .opened) (hl : s.titleInLane th = false) (hn : n < t.profiles.length) (hf : Profile.inRange f = true) :
    setProfile th n f s =
      accept (profileBytes f) ((s.setTitle th { t with profiles := t.profiles.set n f }).markStale th) := by
  refine (titleChange_taken h hst hl).trans (if_neg ?_)
  simp [hn, hf]

theorem setProfileCount_refused {th n : Nat} {s : State} {t : Title} (h : s.title? th = some t)
    (hst : t.state = .opened) (hl : s.titleInLane th = false) (hr : ¬ (1 ≤ n ∧ n ≤ 4)) :
    setProfileCount th n s = refuse .range s :=
  (titleChange_taken h hst hl).trans (if_pos (by omega))

theorem setProfileCount_taken {th n : Nat} {s : State} {t : Title} (h : s.title? th = some t)
    (hst : t.state = .opened) (hl : s.titleInLane th = false) (hr : 1 ≤ n ∧ n ≤ 4) :
    setProfileCount th n s =
      accept (le 1 n) ((s.setTitle th { t with profiles := resizeProfiles n t.profiles }).markStale th) :=
  (titleChange_taken h hst hl).trans (if_neg (by omega))

/-! ### SET-ROOM-TONE -/

section
variable {th take start length : Nat} {s : State} {t : Title} {k : Take}

theorem withTake_none {f : Take → Answer × State} (h : s.take? th take = none) :
    withTake th take s f = refuse .badHandle s := by
  simp [withTake, h]

theorem withTake_some {f : Take → Answer × State} (h : s.take? th take = some k) : withTake th take s f = f k := by
  simp [withTake, h]

theorem setRoomTone_noTake (h : s.title? th = some t) (hst : t.state = .opened) (hl : s.titleInLane th = false)
    (hk : s.take? th take = none) : setRoomTone th take start length s = refuse .badHandle s :=
  (titleChange_taken h hst hl).trans (withTake_none hk)

theorem setRoomTone_recording (h : s.title? th = some t) (hst : t.state = .opened) (hl : s.titleInLane th = false)
    (hk : s.take? th take = some k) (hr : k.state = .recording) :
    setRoomTone th take start length s = refuse .badState s :=
  (titleChange_taken h hst hl).trans ((withTake_some hk).trans (if_pos hr))

theorem setRoomTone_range (h : s.title? th = some t) (hst : t.state = .opened) (hl : s.titleInLane th = false)
    (hk : s.take? th take = some k) (hr : k.state ≠ .recording)
    (hf : ¬ (4800 ≤ length ∧ length ≤ 96000 ∧ spanFits k start length)) :
    setRoomTone th take start length s = refuse .range s := by
  rw [← toneInRange_iff hk, Bool.not_eq_true] at hf
  exact (titleChange_taken h hst hl).trans ((withTake_some hk).trans ((if_neg hr).trans (if_pos hf)))

theorem setRoomTone_taken (h : s.title? th = some t) (hst : t.state = .opened) (hl : s.titleInLane th = false)
    (hk : s.take? th take = some k) (hr : k.state ≠ .recording)
    (hf : 4800 ≤ length ∧ length ≤ 96000 ∧ spanFits k start length) :
    setRoomTone th take start length s =
      accept (spanBytes ⟨take, start, length⟩) ((s.moveTone th t (some ⟨take, start, length⟩)).markStale th) := by
  rw [← toneInRange_iff hk] at hf
  exact (titleChange_taken h hst hl).trans ((withTake_some hk).trans ((if_neg hr).trans (if_neg (by simp [hf]))))

end

/-! ### FINALIZE-TITLE -/

/-- The first record of a table that passes a test has the lowest number of those that pass. -/
theorem Tab.find_lowest {α : Type} {t : Tab α} {f : Nat × α → Bool} {e : Nat × α} (hw : Tab.wf t = true)
    (he : t.find? f = some e) : ∀ x ∈ t, f x = true → e.1 ≤ x.1 := by
  induction t with
  | nil => cases he
  | cons y t ih =>
    obtain ⟨ht, ha⟩ := Tab.wf_cons hw
    rw [List.find?_cons] at he
    intro x hx hfx
    split at he
    · cases he
      rcases List.mem_cons.1 hx with rfl | hx
      · exact le_rfl
      · exact (ha x hx).le
    · next hy =>
      rcases List.mem_cons.1 hx with rfl | hx
      · exact absurd hfx (by simp [hy])
      · exact ih ht he x hx hfx

/-- R14: chapter `c` of the title is the lowest that is not DONE, or is stale. -/
theorem State.offending_eq_some {s : State} {th c : Nat} {k : Chapter} (hw : Tab.wf s.chapters = true) (hc : c ≤ 127)
    (hk : s.chapter? ⟨th, c⟩ = some k) (hbad : k.state ≠ .done ∨ k.stale = true)
    (hlow : ∀ c' k', c' < c → s.chapter? ⟨th, c'⟩ = some k' → k'.state = .done ∧ k'.stale = false) :
    s.offending th = some c := by
  have hmem : (th * 128 + c, k) ∈ s.titleChapters th :=
    List.mem_filter.2 ⟨Tab.mem_of_look hk, by simp only [decide_eq_true_eq]; omega⟩
  have hwt : Tab.wf (s.titleChapters th) = true := Tab.wf_filter _ hw
  have hpass : (decide (k.state ≠ .done) || k.stale) = true := by rcases hbad with h | h <;> simp [h]
  unfold State.offending
  cases he : (s.titleChapters th).find? (fun e => decide (e.2.state ≠ .done) || e.2.stale) with
  | none => exact absurd (List.find?_eq_none.1 he _ hmem) (not_not.2 hpass)
  | some e =>
    obtain ⟨n, k'⟩ := e
    have hle : n ≤ th * 128 + c := Tab.find_lowest hwt he _ hmem hpass
    have hbad' := List.find?_some he
    obtain ⟨hin, hth⟩ := List.mem_filter.1 (List.mem_of_find?_eq_some he)
    simp only [decide_eq_true_eq] at hth
    rcases Nat.lt_or_ge (n % 128) c with hlt | hge
    · have hk' : s.chapter? ⟨th, n % 128⟩ = some k' := by
        have hkey : (ChapterId.mk th (n % 128)).key = n := by simp only [ChapterId.key]; omega
        rw [State.chapter?, hkey]
        exact Tab.look_of_mem hw hin
      obtain ⟨hdone, hfresh⟩ := hlow _ _ hlt hk'
      simp [hdone, hfresh] at hbad'
    · simp only [Option.map_some, Option.some.injEq]
      omega

theorem State.offending_eq_none {s : State} {th : Nat}
    (h : ∀ e ∈ s.chapters, e.1 / 128 = th → e.2.state = .done ∧ e.2.stale = false) : s.offending th = none := by
  refine Option.map_eq_none_iff.2 (List.find?_eq_none.2 fun e he => ?_)
  obtain ⟨hin, hth⟩ := List.mem_filter.1 he
  obtain ⟨hdone, hfresh⟩ := h e hin (of_decide_eq_true hth)
  simp [hdone, hfresh]

theorem State.titleChapters_isEmpty {s : State} {th : Nat} :
    (s.titleChapters th).isEmpty = true ↔ ∀ e ∈ s.chapters, e.1 / 128 ≠ th := by
  simp [State.titleChapters]

theorem State.titleRecording_iff {s : State} {th : Nat} :
    s.titleRecording th = true ↔ ∃ e ∈ s.takeMem.takes, e.2.title = th ∧ e.2.state = .recording := by
  simp [State.titleRecording, State.titleTakes]

section
variable {th : Nat} {s : State} {t : Title}

theorem finalizeTitle_final (h : s.title? th = some t) (hst : t.state = .final) :
    finalizeTitle th s = accept (le 1 TitleState.final.code) s :=
  (withTitle_some h).trans (if_pos hst)

theorem finalizeTitle_empty (h : s.title? th = some t) (hst : t.state ≠ .final) (he : (s.titleChapters th).isEmpty = true) :
    finalizeTitle th s = refuseFinal 255 s :=
  (withTitle_some h).trans ((if_neg hst).trans (if_pos he))

theorem finalizeTitle_offending {i : Nat} (h : s.title? th = some t) (hst : t.state ≠ .final)
    (he : (s.titleChapters th).isEmpty = false) (hi : s.offending th = some i) : finalizeTitle th s = refuseFinal i s := by
  simp [finalizeTitle, withTitle_some h, hst, he, hi]

theorem finalizeTitle_recording (h : s.title? th = some t) (hst : t.state ≠ .final)
    (he : (s.titleChapters th).isEmpty = false) (hi : s.offending th = none) (hr : s.titleRecording th = true) :
    finalizeTitle th s = refuseFinal 255 s := by
  simp [finalizeTitle, withTitle_some h, hst, he, hi, hr]

theorem finalizeTitle_taken (h : s.title? th = some t) (hst : t.state ≠ .final)
    (he : (s.titleChapters th).isEmpty = false) (hi : s.offending th = none) (hr : s.titleRecording th = false) :
    finalizeTitle th s = accept (le 1 TitleState.final.code) (s.setTitle th { t with state := .final }) := by
  simp [finalizeTitle, withTitle_some h, hst, he, hi, hr]

end

end Sys2Proof.Machine

namespace Sys2Proof.Settled

open Sys2Proof.Machine

/-- Settles O10: the owner looks at the title first, and refuses by its state, or by a chapter of it in a lane. -/
theorem refusedByTheTitle : Obligations.RefusedByTheTitle := by
  unfold Obligations.RefusedByTheTitle
  refine ⟨fun i p tag r s t hi h ha ht hl => ?_, fun i p tag r s t e hi h ha hc ht hst he hth hlane => ?_⟩
  · rw [exec_request hi]
    refine request_refused tag .locked (by decide) h ha (formatOk_of_lockedIn hl) fun u hu _ _ _ _ => handle_locked ?_ hl
    simpa only [State.title?, hu] using ht
  · obtain ⟨hcl, hf, hd⟩ := isTitleChange_spec hc
    have hin := State.titleInLane_of_mem he hth ((ChapterState.inLane_iff _).2 hlane)
    exact exec_reads hi h (hcl ▸ ha) hf hd (handle_busy ht hst hc hin)

/-- Settles O13: the first record with the number, else the first FREE handle, decides the outcome. -/
theorem registerTitle : Obligations.RegisterTitle := by
  unfold Obligations.RegisterTitle
  intro p tag n s hl ha
  refine ⟨fun hn => ?_, fun h t hn ht hc hlow => ?_, fun hn hnone => ⟨fun hfull => ?_, fun h h1 h4 hf hlow => ?_⟩⟩
  · exact exec_reads (r := .registerTitle n) rfl hl ha rfl rfl (if_pos hn)
  · refine exec_reads (r := .registerTitle n) rfl hl ha rfl rfl ?_
    refine (registerTitle_existing (s := s.heard p 8) hn (State.handleOf_eq_some ht hc hlow) ht).trans ?_
    rw [le_titleState]
    rfl
  · exact exec_reads (r := .registerTitle n) rfl hl ha rfl rfl
      (registerTitle_full hn (State.handleOf_eq_none hnone) (State.freeHandle_eq_none hfull))
  · exact exec_answered (r := .registerTitle n) (s.setTitle h (newTitle n)) rfl hl ha rfl rfl rfl
      (registerTitle_new hn (State.handleOf_eq_none hnone) (State.freeHandle_eq_some h1 h4 hf hlow))

/-- Settles O14: the change passes the checks of R5, and then its own fields decide. -/
theorem titleParameters : Obligations.TitleParameters := by
  unfold Obligations.TitleParameters
  refine ⟨fun p tag th mask v s t h ha ht hst hlane => ?_, fun p tag th n f s t h ha ht hst hlane => ⟨?_, ?_⟩⟩
  · refine ⟨appliedLoudness mask v t.loudness, namedField_eq (by decide) .., namedField_eq (by decide) ..,
      namedField_eq (by decide) .., namedField_eq (by decide) .., namedField_eq (by decide) .., ?_⟩
    rw [← loudnessClamped_eq mask v t.loudness]
    exact exec_answered (r := .setTitleParams th mask v)
      ((s.setTitle th { t with loudness := appliedLoudness mask v t.loudness }).markStale th) rfl h ha rfl rfl rfl
      (titleChange_taken ht hst hlane)
  · split
    · next hr =>
      rw [← Profile.inRange_iff] at hr
      exact exec_answered (r := .setProfile th n f)
        ((s.setTitle th { t with profiles := t.profiles.set n f }).markStale th) rfl h ha rfl rfl rfl
        (setProfile_taken ht hst hlane hr.1 hr.2)
    · next hr =>
      rw [← Profile.inRange_iff] at hr
      exact exec_reads (r := .setProfile th n f) rfl h ha rfl rfl (setProfile_refused ht hst hlane hr)
  · split
    · next hr =>
      exact exec_answered (r := .setProfileCount th n)
        ((s.setTitle th { t with profiles := resizeProfiles n t.profiles }).markStale th) rfl h ha rfl rfl rfl
        (setProfileCount_taken ht hst hlane hr)
    · next hr => exact exec_reads (r := .setProfileCount th n) rfl h ha rfl rfl (setProfileCount_refused ht hst hlane hr)

/-- Settles O15: the change passes the checks of R5, then the take and the span decide. -/
theorem roomTone : Obligations.RoomTone := by
  unfold Obligations.RoomTone
  intro p tag th take start length s t h ha ht hst hlane
  refine ⟨fun hk => ?_, fun k hk hr => ?_, fun k hk hr hf => ?_, fun k hk hr h1 h2 hf => ?_, ?_⟩
  · exact exec_reads (r := .setRoomTone th take start length) rfl h ha rfl rfl (setRoomTone_noTake ht hst hlane hk)
  · exact exec_reads (r := .setRoomTone th take start length) rfl h ha rfl rfl (setRoomTone_recording ht hst hlane hk hr)
  · exact exec_reads (r := .setRoomTone th take start length) rfl h ha rfl rfl (setRoomTone_range ht hst hlane hk hr hf)
  · exact exec_answered (r := .setRoomTone th take start length)
      ((s.moveTone th t (some ⟨take, start, length⟩)).markStale th) rfl h ha rfl rfl rfl
      (setRoomTone_taken ht hst hlane hk hr ⟨h1, h2, hf⟩)
  · exact exec_answered (r := .clearRoomTone th) ((s.moveTone th t none).markStale th) rfl h ha rfl rfl rfl
      (titleChange_taken ht hst hlane)

/-- Settles O16: the state of the title decides, and for FINALIZE-TITLE of a title that is not FINAL its chapters and takes. -/
theorem titleStates : Obligations.TitleStates := by
  unfold Obligations.TitleStates
  intro p tag th s t h ha ht
  refine ⟨fun hst => ?_, fun hst => ?_, fun hst => ?_, fun hst => ?_, fun hst => ?_, fun hst hnone => ?_,
    fun c k hst hw hc hk hbad hlow => ?_, fun hst hsome hall => ?_⟩
  · exact exec_answered (r := .holdTitle th) (s.setTitle th { t with state := .held }) rfl h ha rfl rfl rfl
      (holdTitle_opened ht hst)
  · exact exec_reads (r := .holdTitle th) rfl h ha rfl rfl (holdTitle_held ht hst)
  · exact exec_answered (r := .releaseTitle th) (s.setTitle th { t with state := .opened }) rfl h ha rfl rfl rfl
      (releaseTitle_held ht hst)
  · exact exec_reads (r := .releaseTitle th) rfl h ha rfl rfl (releaseTitle_opened ht hst)
  · exact exec_reads (r := .finalizeTitle th) rfl h ha rfl rfl (finalizeTitle_final ht hst)
  · exact exec_reads (r := .finalizeTitle th) rfl h ha rfl rfl
      (finalizeTitle_empty ht hst (State.titleChapters_isEmpty.2 hnone))
  · have hne : (s.titleChapters th).isEmpty = false := by
      rw [← Bool.not_eq_true, State.titleChapters_isEmpty]
      intro hnone
      exact hnone _ (Tab.mem_of_look hk) (by simp only [ChapterId.key]; omega)
    exact exec_reads (r := .finalizeTitle th) rfl h ha rfl rfl
      (finalizeTitle_offending ht hst hne (State.offending_eq_some hw hc hk hbad hlow))
  · have hne : (s.titleChapters th).isEmpty = false := by
      obtain ⟨e, he, hth⟩ := hsome
      rw [← Bool.not_eq_true, State.titleChapters_isEmpty]
      exact fun hnone => hnone e he hth
    have hoff : s.offending th = none := State.offending_eq_none hall
    refine ⟨fun hrec => ?_, fun hrec => ?_⟩
    · exact exec_reads (r := .finalizeTitle th) rfl h ha rfl rfl
        (finalizeTitle_recording ht hst hne hoff (State.titleRecording_iff.2 hrec))
    · have hr : s.titleRecording th = false := by
        rw [← Bool.not_eq_true, State.titleRecording_iff]
        rintro ⟨e, he, hth, hst⟩
        exact hrec e he hth hst
      exact exec_answered (r := .finalizeTitle th) (s.setTitle th { t with state := .final }) rfl h ha rfl rfl rfl
        (finalizeTitle_taken ht hst hne hoff hr)

end Sys2Proof.Settled
end

section
/-! SUPPORT. What RETIRE-TITLE leaves: groups released and counts lowered in take memory, takes dropped one after the other, and
the part as a whole. -/

namespace Sys2Proof.Machine

/-! ### Records of the group map -/

namespace TakeMemory

theorem group_setGroup (m : TakeMemory) (g x : Nat) (r : Group) :
    (m.setGroup g r).group x = if x = g ∧ g < m.groups.length then r else m.group x := by
  simp only [group, setGroup, List.getD_eq_getElem?_getD, List.getElem?_set]
  by_cases hx : x = g
  · subst hx
    by_cases hl : x < m.groups.length <;> simp [hl]
  · simp [hx, Ne.symm hx]

theorem group_setGroup_other (m : TakeMemory) {g x : Nat} (r : Group) (h : x ≠ g) : (m.setGroup g r).group x = m.group x := by
  simp [group_setGroup, h]

@[simp] theorem length_setGroup (m : TakeMemory) (g : Nat) (r : Group) : (m.setGroup g r).groups.length = m.groups.length := by
  simp [setGroup]

/-! ### Counts lowered -/

theorem lower_clean (m : TakeMemory) (gs : List Nat) : (m.lower gs).clean = m.clean :=
  foldl_unchanged (f := clean) (g := changeRefs (· - 1)) (fun _ _ => rfl) gs m

theorem lower_dirty (m : TakeMemory) (gs : List Nat) : (m.lower gs).dirty = m.dirty :=
  foldl_unchanged (f := dirty) (g := changeRefs (· - 1)) (fun _ _ => rfl) gs m

theorem lower_engine (m : TakeMemory) (gs : List Nat) : (m.lower gs).engine = m.engine :=
  foldl_unchanged (f := engine) (g := changeRefs (· - 1)) (fun _ _ => rfl) gs m

theorem lower_bad (m : TakeMemory) (gs : List Nat) : (m.lower gs).bad = m.bad :=
  foldl_unchanged (f := bad) (g := changeRefs (· - 1)) (fun _ _ => rfl) gs m

theorem lower_scrub (m : TakeMemory) (gs : List Nat) : (m.lower gs).scrub = m.scrub :=
  foldl_unchanged (f := scrub) (g := changeRefs (· - 1)) (fun _ _ => rfl) gs m

theorem lower_length (m : TakeMemory) (gs : List Nat) : (m.lower gs).groups.length = m.groups.length :=
  foldl_unchanged (f := fun m : TakeMemory => m.groups.length) (g := changeRefs (· - 1)) (fun _ _ => length_setGroup ..) gs m

/-- R65: the count of a group falls by the number of times it is named, and not below 0. -/
theorem group_lower (m : TakeMemory) (gs : List Nat) {x : Nat} (hx : x < m.groups.length) :
    (m.lower gs).group x = { m.group x with refs := (m.group x).refs - gs.count x } := by
  induction gs generalizing m with
  | nil => rfl
  | cons g gs ih =>
    have hstep : (m.changeRefs (· - 1) g).group x =
        { m.group x with refs := (m.group x).refs - if x = g then 1 else 0 } := by
      rw [changeRefs, group_setGroup]
      by_cases h : x = g
      · subst h; simp [hx]
      · simp [h]
    have hlow : m.lower (g :: gs) = (m.changeRefs (· - 1) g).lower gs := rfl
    rw [hlow, ih _ (by simpa [changeRefs] using hx), hstep, List.count_cons]
    by_cases h : x = g
    · subst h
      simp only [if_true, beq_self_eq_true, Nat.sub_sub, Nat.add_comm 1]
    · simp [h, Ne.symm h]

theorem lower_faulted (m : TakeMemory) (gs : List Nat) (x : Nat) : ((m.lower gs).group x).faulted = (m.group x).faulted := by
  refine foldl_unchanged (f := fun m : TakeMemory => (m.group x).faulted) (g := changeRefs (· - 1)) (fun m g => ?_) gs m
  simp only [changeRefs, group_setGroup]
  split
  · next h => rw [h.1]
  · rfl

/-! ### Groups released -/

theorem release_clean (m : TakeMemory) (g : Nat) : (m.release g).clean = m.clean := by
  unfold release; split <;> rfl

theorem release_engine (m : TakeMemory) (g : Nat) : (m.release g).engine = m.engine := by
  unfold release; split <;> rfl

theorem release_scrub (m : TakeMemory) (g : Nat) : (m.release g).scrub = m.scrub := by
  unfold release; split <;> rfl

theorem release_length (m : TakeMemory) (g : Nat) : (m.release g).groups.length = m.groups.length := by
  unfold release; split <;> exact length_setGroup ..

/-- R45: where a released group waits, by its mark. -/
theorem release_dirty (m : TakeMemory) (g : Nat) :
    (m.release g).dirty = if (m.group g).faulted then m.dirty else m.dirty ++ [g] := by
  unfold release; split <;> rfl

theorem release_bad (m : TakeMemory) (g : Nat) :
    (m.release g).bad = if (m.group g).faulted then insertBad g m.bad else m.bad := by
  unfold release; split <;> rfl

/-- R41, R45: the record of a group that no take owns any more. -/
def freed (r : Group) : Group := ⟨if r.faulted then .bad else .dirty, none, none, r.refs, false⟩

theorem group_release_same (m : TakeMemory) {g : Nat} (hg : g < m.groups.length) :
    (m.release g).group g = freed (m.group g) := by
  unfold release freed
  split
  · next h => exact (group_setGroup ..).trans (by simp [hg])
  · next h => exact (group_setGroup ..).trans (by simpa [hg] using h)

theorem group_release_other (m : TakeMemory) {g x : Nat} (h : x ≠ g) : (m.release g).group x = m.group x := by
  unfold release
  split <;> exact group_setGroup_other _ _ h

theorem release_withTakes (m : TakeMemory) (g : Nat) (t : Tab Take) :
    release { m with takes := t } g = { m.release g with takes := t } := by
  have hg : ({ m with takes := t } : TakeMemory).group g = m.group g := rfl
  unfold release
  rw [hg]
  split <;> rfl

theorem releaseAll_clean (m : TakeMemory) (gs : List Nat) : (m.releaseAll gs).clean = m.clean :=
  foldl_unchanged (f := clean) release_clean gs m

theorem releaseAll_engine (m : TakeMemory) (gs : List Nat) : (m.releaseAll gs).engine = m.engine :=
  foldl_unchanged (f := engine) release_engine gs m

theorem releaseAll_scrub (m : TakeMemory) (gs : List Nat) : (m.releaseAll gs).scrub = m.scrub :=
  foldl_unchanged (f := scrub) release_scrub gs m

theorem releaseAll_length (m : TakeMemory) (gs : List Nat) : (m.releaseAll gs).groups.length = m.groups.length :=
  foldl_unchanged (f := fun m : TakeMemory => m.groups.length) release_length gs m

theorem releaseAll_cons (m : TakeMemory) (g : Nat) (gs : List Nat) : m.releaseAll (g :: gs) = (m.release g).releaseAll gs := rfl

theorem releaseAll_append (m : TakeMemory) (gs hs : List Nat) : m.releaseAll (gs ++ hs) = (m.releaseAll gs).releaseAll hs :=
  List.foldl_append

theorem releaseAll_withTakes (m : TakeMemory) (gs : List Nat) (t : Tab Take) :
    releaseAll { m with takes := t } gs = { m.releaseAll gs with takes := t } := by
  induction gs generalizing m with
  | nil => rfl
  | cons g gs ih => rw [releaseAll_cons, releaseAll_cons, release_withTakes, ih]

/-- The groups of a list, by their marks as they stand; releasing another group first changes none of these marks. -/
theorem filter_faulted_release (m : TakeMemory) {g : Nat} {gs : List Nat} (hg : g ∉ gs) (f : Bool → Bool) :
    gs.filter (fun x => f ((m.release g).group x).faulted) = gs.filter (fun x => f (m.group x).faulted) :=
  List.filter_congr fun x hx => by rw [group_release_other m (ne_of_mem_of_not_mem hx hg)]

/-- R45: several groups, each once, join the tail of the dirty list in order, but for those with the mark. -/
theorem releaseAll_dirty (m : TakeMemory) {gs : List Nat} (hn : gs.Nodup) :
    (m.releaseAll gs).dirty = m.dirty ++ gs.filter (fun g => !(m.group g).faulted) := by
  induction gs generalizing m with
  | nil => exact (List.append_nil _).symm
  | cons g gs ih =>
    obtain ⟨hg, hn⟩ := List.nodup_cons.1 hn
    rw [releaseAll_cons, ih _ hn, filter_faulted_release m hg, release_dirty, List.filter_cons]
    cases (m.group g).faulted <;> simp

theorem insertBad_perm {g : Nat} {l : List Nat} (h : g ∉ l) : (insertBad g l).Perm (g :: l) := by
  induction l with
  | nil => exact .refl _
  | cons x l ih =>
    rw [List.mem_cons, not_or] at h
    unfold insertBad
    rw [if_neg (Ne.symm h.1)]
    split
    · exact .refl _
    · exact ((ih h.2).cons x).trans (.swap ..)

/-- R45: those with the mark join the bad set, where none of them is yet. -/
theorem releaseAll_bad (m : TakeMemory) {gs : List Nat} (hn : gs.Nodup) (hb : ∀ g ∈ gs, g ∉ m.bad) :
    (m.releaseAll gs).bad.Perm (m.bad ++ gs.filter (fun g => (m.group g).faulted)) := by
  induction gs generalizing m with
  | nil => exact .of_eq (List.append_nil _).symm
  | cons g gs ih =>
    obtain ⟨hg, hn⟩ := List.nodup_cons.1 hn
    obtain ⟨hgb, hb⟩ := List.forall_mem_cons.1 hb
    have hrest : (m.release g).bad.Perm (if (m.group g).faulted then g :: m.bad else m.bad) := by
      rw [release_bad]
      split
      · exact insertBad_perm hgb
      · exact .refl _
    have hout : ∀ x ∈ gs, x ∉ (m.release g).bad := fun x hx hxb => by
      have := hrest.mem_iff.1 hxb
      split at this
      · rcases List.mem_cons.1 this with rfl | h
        · exact hg hx
        · exact hb x hx h
      · exact hb x hx this
    rw [releaseAll_cons]
    refine (ih _ hn hout).trans ?_
    rw [show gs.filter (fun x => ((m.release g).group x).faulted) = _ from filter_faulted_release m hg id, List.filter_cons]
    refine (hrest.append_right _).trans ?_
    cases (m.group g).faulted with
    | false => exact .refl _
    | true => exact List.perm_middle.symm

/-- R45: the record of a group after several groups, each once, have been released. -/
theorem group_releaseAll (m : TakeMemory) {gs : List Nat} (hn : gs.Nodup) {x : Nat} (hx : x < m.groups.length) :
    (m.releaseAll gs).group x = if x ∈ gs then freed (m.group x) else m.group x := by
  induction gs generalizing m with
  | nil => rfl
  | cons g gs ih =>
    obtain ⟨hg, hn⟩ := List.nodup_cons.1 hn
    rw [releaseAll_cons, ih _ hn (by rwa [release_length])]
    by_cases h : x = g
    · subst h
      rw [if_neg hg, if_pos (List.mem_cons_self ..), group_release_same m hx]
    · simp [group_release_other m h, h]

end TakeMemory

/-! ### Takes dropped -/

theorem Tab.foldl_drop {α β : Type} (es : List (Nat × β)) (t : Tab α) :
    es.foldl (fun t e => Tab.drop t e.1) t = t.filter (fun x => !es.any (fun e => decide (x.1 = e.1))) := by
  induction es generalizing t with
  | nil => exact (List.filter_eq_self.2 fun _ _ => rfl).symm
  | cons e es ih =>
    rw [List.foldl_cons, ih, Tab.drop, List.filter_filter]
    refine List.filter_congr fun x _ => ?_
    rw [List.any_cons, Bool.not_or, Bool.and_comm, decide_not]

/-- Dropping the records of a table that pass a test, by their numbers, leaves those that do not. -/
theorem Tab.foldl_drop_filter {α : Type} {t : Tab α} (hw : Tab.wf t = true) (f : Nat × α → Bool) :
    (t.filter f).foldl (fun t e => Tab.drop t e.1) t = t.filter (fun e => !f e) := by
  rw [Tab.foldl_drop]
  refine List.filter_congr fun x hx => ?_
  have hkey : (t.filter f).any (fun e => decide (x.1 = e.1)) = f x := by
    rw [Bool.eq_iff_iff, List.any_eq_true]
    constructor
    · rintro ⟨y, hy, hyx⟩
      obtain ⟨hyt, hfy⟩ := List.mem_filter.1 hy
      have hkeys : x.1 = y.1 := of_decide_eq_true hyx
      have hlook := Tab.look_of_mem hw (show (x.1, x.2) ∈ t from hx)
      rw [hkeys, Tab.look_of_mem hw (show (y.1, y.2) ∈ t from hyt)] at hlook
      rwa [show x = y from Prod.ext hkeys (Option.some.inj hlook).symm]
    · exact fun hfx => ⟨x, List.mem_filter.2 ⟨hx, hfx⟩, decide_eq_true rfl⟩
  rw [hkey]

/-- R72: a sequence that marks the take ends. -/
theorem Ports.get_dropMarks (q : Ports) (id : Nat) (p : Port) : (q.dropMarks id).get p = { q.get p with
    sequence := if (q.get p).sequence.take? = some id then .none else (q.get p).sequence } := by
  rw [Ports.dropMarks, Ports.get_map]
  split <;> rfl

/-- R72 for several takes: a sequence that marks one of them ends. -/
theorem Ports.get_foldl_dropMarks {α : Type} (es : List (Nat × α)) (q : Ports) (p : Port) :
    (es.foldl (fun q e => q.dropMarks e.1) q).get p = { q.get p with
      sequence := if es.any (fun e => decide ((q.get p).sequence.take? = some e.1)) then .none else (q.get p).sequence } := by
  induction es generalizing q with
  | nil => rfl
  | cons e es ih =>
    rw [List.foldl_cons, ih, Ports.get_dropMarks, List.any_cons]
    by_cases h : (q.get p).sequence.take? = some e.1
    · simp only [h, if_true, decide_true, Bool.true_or, ite_self]
    · simp only [h, if_false, decide_false, Bool.false_or]

/-- R17 step 5 for several takes: their groups leave one after the other, their records go, and their marks end. -/
theorem State.foldl_retireTake (es : Tab Take) (s : State) :
    es.foldl State.retireTake s = { s with
      takeMem := { s.takeMem.releaseAll (es.flatMap (fun e => e.2.owned)) with
        takes := es.foldl (fun t e => Tab.drop t e.1) s.takeMem.takes }
      ports := es.foldl (fun q e => q.dropMarks e.1) s.ports } := by
  induction es generalizing s with
  | nil => rfl
  | cons e es ih =>
    rw [List.foldl_cons, ih]
    simp only [State.retireTake, State.dropTake, State.setTakeMem, TakeMemory.releaseAll_takes, List.flatMap_cons,
      TakeMemory.releaseAll_append, TakeMemory.releaseAll_withTakes, List.foldl_cons]

/-! ### A title retired -/

/-- The owned groups of the title's takes, in the order of the takes and of their lists. -/
def State.titleOwned (s : State) (th : Nat) : List Nat := (s.titleTakes th).flatMap (fun e => e.2.owned)

/-- R42: each of them is there once, and none is in the bad set. -/
theorem State.GroupLaw.titleOwned {s : State} (h : s.GroupLaw) (th : Nat) :
    (s.titleOwned th).Nodup ∧ ∀ g ∈ s.titleOwned th, g ∉ s.takeMem.bad := by
  have hn : s.takeMem.places.Nodup := h.2.nodup_iff.2 List.nodup_range
  obtain ⟨hfree, howned, hdisj⟩ := List.nodup_append'.1 hn
  have hsub : (s.titleOwned th).Sublist (s.takeMem.takes.flatMap (fun e => e.2.owned)) :=
    List.filter_sublist.flatMap _
  exact ⟨howned.sublist hsub, fun g hg hb => hdisj (List.mem_append_right _ hb) (hsub.subset hg)⟩

/-- R16, R17: what a taken RETIRE-TITLE leaves of each block. -/
theorem State.retire_eq (s : State) (th : Nat) (t : Title) :
    s.retire th t = { s with
      titles := Tab.drop s.titles th
      chapters := s.chapters.filter (fun e => decide (e.1 / 128 ≠ th))
      takeMem := { (s.takeMem.lower (s.titleGroups th t)).releaseAll (s.titleOwned th) with
        takes := (s.titleTakes th).foldl (fun t e => Tab.drop t e.1) s.takeMem.takes }
      queue := { s.queue.remove (ofTitle th) with count := s.queue.count - s.queue.entriesOf th }
      rendMem := { s.rendMem with
        pool := s.rendMem.pool ++ s.titlePages th, sets := s.rendMem.sets.filter (fun e => decide (e.1 / 128 ≠ th)) }
      ports := ((s.titleTakes th).foldl (fun q e => q.dropMarks e.1) s.ports).notify
        (fun l => l.removeNaming (ofTitle th)) } := by
  have htakes : (s.retirePlan th t).titleTakes th = s.titleTakes th := by
    simp only [State.titleTakes, State.retirePlan, TakeMemory.lower_takes]
  unfold State.retire State.retireTakes
  rw [htakes, State.foldl_retireTake]
  simp only [State.retirePlan, TakeMemory.lower_takes]
  rfl

theorem State.retire_takes {s : State} (hw : Tab.wf s.takeMem.takes = true) (th : Nat) (t : Title) :
    (s.retire th t).takeMem.takes = s.takeMem.takes.filter (fun e => decide (e.2.title ≠ th)) := by
  rw [State.retire_eq]
  refine (Tab.foldl_drop_filter hw _).trans (List.filter_congr fun e _ => ?_)
  simp

theorem State.retire_dirty {s : State} (h : s.GroupLaw) (th : Nat) (t : Title) :
    (s.retire th t).takeMem.dirty =
      s.takeMem.dirty ++ (s.titleOwned th).filter (fun g => !(s.takeMem.group g).faulted) := by
  rw [State.retire_eq]
  refine (TakeMemory.releaseAll_dirty _ (h.titleOwned th).1).trans ?_
  simp only [TakeMemory.lower_dirty, TakeMemory.lower_faulted]

theorem State.retire_bad {s : State} (h : s.GroupLaw) (th : Nat) (t : Title) :
    (s.retire th t).takeMem.bad.Perm
      (s.takeMem.bad ++ (s.titleOwned th).filter (fun g => (s.takeMem.group g).faulted)) := by
  obtain ⟨hn, hb⟩ := h.titleOwned th
  have hp := TakeMemory.releaseAll_bad (s.takeMem.lower (s.titleGroups th t)) hn (by rwa [TakeMemory.lower_bad])
  simp only [TakeMemory.lower_bad, TakeMemory.lower_faulted] at hp
  rwa [State.retire_eq]

theorem State.retire_length (s : State) (th : Nat) (t : Title) :
    (s.retire th t).takeMem.groups.length = s.takeMem.groups.length := by
  rw [State.retire_eq]
  exact (TakeMemory.releaseAll_length ..).trans (TakeMemory.lower_length ..)

/-- R16 step 2, R17 step 5: the record of every group: released if a take of the title owned it, and its count lowered. -/
theorem State.retire_group {s : State} (h : s.GroupLaw) (th : Nat) (t : Title) {g : Nat} (hg : g < s.takeMem.groups.length) :
    (s.retire th t).takeMem.group g =
      { (if g ∈ s.titleOwned th then TakeMemory.freed (s.takeMem.group g) else s.takeMem.group g) with
        refs := (s.takeMem.group g).refs - (s.titleGroups th t).count g } := by
  have hg' : g < (s.takeMem.lower (s.titleGroups th t)).groups.length := by rwa [TakeMemory.lower_length]
  rw [State.retire_eq]
  refine (TakeMemory.group_releaseAll _ (h.titleOwned th).1 hg').trans ?_
  rw [TakeMemory.group_lower _ _ hg]
  split <;> rfl

theorem State.retire_port (s : State) (th : Nat) (t : Title) (q : Port) :
    (s.retire th t).port q = { s.port q with
      lists := (s.port q).lists.removeNaming (ofTitle th)
      sequence := if (s.titleTakes th).any (fun e => decide ((s.port q).sequence.take? = some e.1)) then .none
        else (s.port q).sequence } := by
  rw [State.retire_eq]
  refine (Ports.get_notify ..).trans ?_
  rw [Ports.get_foldl_dropMarks]
  rfl

/-! ### RETIRE-TITLE -/

section
variable {th : Nat} {s : State} {t : Title}

theorem retireTitle_busy (h : s.title? th = some t) (hb : s.titleInLane th = true ∨ s.titleRecording th = true) :
    retireTitle th s = refuse .busy s :=
  (withTitle_some h).trans (if_pos (by simpa using hb))

theorem retireTitle_locked (h : s.title? th = some t) (hl : s.titleInLane th = false) (hr : s.titleRecording th = false)
    (hh : ∃ e ∈ s.holdTable.holds, e.2.chapter.title = th) : retireTitle th s = refuse .locked s :=
  (withTitle_some h).trans ((if_neg (by simp [hl, hr])).trans (if_pos (by simpa using hh)))

theorem retireTitle_taken (h : s.title? th = some t) (hl : s.titleInLane th = false) (hr : s.titleRecording th = false)
    (hh : ∀ e ∈ s.holdTable.holds, e.2.chapter.title ≠ th) :
    retireTitle th s = accept (retireCounts th s (s.retire th t)) (s.retire th t) :=
  (withTitle_some h).trans ((if_neg (by simp [hl, hr])).trans (if_neg (by simpa using hh)))

/-- R17: the last two counts of the reply are those of the groups released. -/
theorem retireCounts_eq (h : s.GroupLaw) : retireCounts th s (s.retire th t) =
    le 1 (s.titleChapters th).length ++ (le 2 (s.titleTakes th).length ++ (le 4 (s.titlePages th).length ++
      (le 2 ((s.titleOwned th).filter (fun g => !(s.takeMem.group g).faulted)).length ++
        le 2 ((s.titleOwned th).filter (fun g => (s.takeMem.group g).faulted)).length))) := by
  simp only [retireCounts, State.retire_dirty h, (State.retire_bad h th t).length_eq, List.length_append,
    Nat.add_sub_cancel_left]

end

/-- The record of a group after a taken RETIRE-TITLE, by the place that the group goes to. -/
theorem freed_by_place (gone : List Nat) (m : TakeMemory) (g n : Nat) :
    ({ (if g ∈ gone then TakeMemory.freed (m.group g) else m.group g) with refs := n } : Group) =
      { (if g ∈ gone.filter (fun g => (m.group g).faulted) then ⟨.bad, none, none, 0, false⟩
         else if g ∈ gone.filter (fun g => !(m.group g).faulted) then ⟨.dirty, none, none, 0, false⟩
         else m.group g : Group) with
        refs := n } := by
  simp only [List.mem_filter]
  by_cases hg : g ∈ gone
  · cases hf : (m.group g).faulted <;> simp [hg, TakeMemory.freed, hf]
  · simp [hg]

/-- The ATTN outputs that follow already do not change. -/
theorem State.driveAttn_driveAttn (s : State) : s.driveAttn.driveAttn = s.driveAttn := rfl

/-- The part after a taken RETIRE-TITLE with its reply, as the taking of a request makes it. -/
def State.retired (s : State) (p : Port) (tag : Byte) (th : Nat) (t : Title) (res : Result) : State :=
  ((((s.heard p 0).retire th t).setSequence p .none).answer p tag (s.marked p) res).driveAttn

section
variable (s : State) (p : Port) (tag : Byte) (th : Nat) (t : Title) (res : Result)

/-- Every block but the ports is as the retirement leaves it. -/
theorem State.retired_eq : s.retired p tag th t res = { s with
    titles := Tab.drop s.titles th
    chapters := s.chapters.filter (fun e => decide (e.1 / 128 ≠ th))
    takeMem := (s.retire th t).takeMem
    queue := { s.queue.remove (ofTitle th) with count := s.queue.count - s.queue.entriesOf th }
    rendMem := { s.rendMem with
      pool := s.rendMem.pool ++ s.titlePages th, sets := s.rendMem.sets.filter (fun e => decide (e.1 / 128 ≠ th)) }
    ports := (s.retired p tag th t res).ports } := by
  unfold State.retired
  rw [State.retire_eq (s.heard p 0), State.retire_eq s]
  rfl

theorem State.retired_port_same : (s.retired p tag th t res).port p = { s.port p with
    lists := (s.port p).lists.removeNaming (ofTitle th)
    sequence := .none
    state := .replyReady
    reply := some ⟨res.status, tag, { res.flags with discardReset := s.marked p }, res.results⟩
    span := none
    sent := 0x10#8 :: List.replicate 6 0#8
    attn := ((s.retired p tag th t res).port p).attn } := by
  rw [State.retired, State.port_driveAttn]
  simp only [State.answer, State.setSequence, State.port_changePort_same, State.retire_port, State.heard]

theorem State.retired_port_other {q : Port} (h : q ≠ p) : (s.retired p tag th t res).port q = { s.port q with
    lists := (s.port q).lists.removeNaming (ofTitle th)
    sequence := if (s.titleTakes th).any (fun e => decide ((s.port q).sequence.take? = some e.1)) then .none
      else (s.port q).sequence
    attn := ((s.retired p tag th t res).port q).attn } := by
  rw [State.retired, State.port_driveAttn]
  simp only [State.answer, State.setSequence, State.port_changePort_other _ _ h, State.retire_port, State.heard]
  rfl

/-- What a taken RETIRE-TITLE leaves: every block but the ports, the port that sent it, and the others. -/
theorem exec_retireTitle {s : State} {p : Port} {t : Title} (h : s.listens p) (ha : s.allows p .plan)
    (ht : s.title? th = some t) (hl : s.titleInLane th = false) (hr : s.titleRecording th = false)
    (hh : ∀ e ∈ s.holdTable.holds, e.2.chapter.title ≠ th) (hg : s.GroupLaw) :
    ∃ u, exec (.retireTitle p tag th) s = .next u ∧
      u = { s with
        titles := Tab.drop s.titles th
        chapters := s.chapters.filter (fun e => decide (e.1 / 128 ≠ th))
        takeMem := (s.retire th t).takeMem
        queue := { s.queue.remove (ofTitle th) with count := s.queue.count - s.queue.entriesOf th }
        rendMem := { s.rendMem with
          pool := s.rendMem.pool ++ s.titlePages th, sets := s.rendMem.sets.filter (fun e => decide (e.1 / 128 ≠ th)) }
        ports := u.ports } ∧
      u.port p = { s.port p with
        lists := (s.port p).lists.removeNaming (ofTitle th)
        sequence := .none
        state := .replyReady
        reply := some ⟨.ok, tag, { discardReset := s.marked p },
          le 1 (s.titleChapters th).length ++ (le 2 (s.titleTakes th).length ++ (le 4 (s.titlePages th).length ++
            (le 2 ((s.titleOwned th).filter (fun g => !(s.takeMem.group g).faulted)).length ++
              le 2 ((s.titleOwned th).filter (fun g => (s.takeMem.group g).faulted)).length)))⟩
        span := none
        sent := 0x10#8 :: List.replicate 6 0#8
        attn := (u.port p).attn } ∧
      (∀ q, q ≠ p → u.port q = { s.port q with
        lists := (s.port q).lists.removeNaming (ofTitle th)
        sequence := if (s.titleTakes th).any (fun e => decide ((s.port q).sequence.take? = some e.1)) then .none
          else (s.port q).sequence
        attn := (u.port q).attn }) ∧
      u.driveAttn = u := by
  have htaken := retireTitle_taken (s := s.heard p 0) ht hl hr hh
  rw [retireCounts_eq (s := s.heard p 0) hg] at htaken
  have hexec := request_reply (r := .retireTitle th) tag h ha rfl rfl htaken
  exact ⟨s.retired p tag th t _, hexec, s.retired_eq p tag th t _, s.retired_port_same p tag th t _,
    fun q hq => s.retired_port_other p tag th t _ hq, State.driveAttn_driveAttn _⟩

end

end Sys2Proof.Machine

namespace Sys2Proof.Settled

open Sys2Proof.Machine

/-- Settles O17: the checks of R15; then `exec_retireTitle` gives each block, and the laws on groups say where they went. -/
theorem retireTitle : Obligations.RetireTitle := by
  unfold Obligations.RetireTitle
  intro p tag th s ti h ha ht
  refine ⟨fun hb => ?_, fun hl hr hh => ?_, fun hl hr hh hg => ?_⟩
  · exact exec_reads (r := .retireTitle th) rfl h ha rfl rfl (retireTitle_busy ht hb)
  · exact exec_reads (r := .retireTitle th) rfl h ha rfl rfl (retireTitle_locked ht hl hr hh)
  obtain ⟨t, hexec, heq, hself, hother, hattn⟩ := exec_retireTitle tag th h ha ht hl hr hh hg
  refine ⟨t, hexec, ?_⟩
  intro gone toDirty toBad
  have hnot : ∀ c : ChapterId, (!ofTitle th c) = decide (c.title ≠ th) := fun c => decide_not.symm
  have htm : t.takeMem = (s.retire th ti).takeMem := (congrArg State.takeMem heq :)
  have htm' := htm
  rw [State.retire_eq] at htm'
  refine ⟨(congrArg State.titles heq :), (congrArg State.chapters heq :), ?_, ?_, ?_, congrArg (·.rendMem.pool) heq,
    congrArg (·.rendMem.sets) heq, congrArg (·.rendMem.mem) heq, ?_, ?_, ?_, ?_, ?_, ?_, ?_, ?_, fun g hlt => ?_,
    (congrArg State.lanes heq :), (congrArg State.wheel heq :), (congrArg State.holdTable heq :), (congrArg State.cause heq :),
    (congrArg State.resetHeld heq :), (congrArg State.pending heq :), fun q => ?_, ?_⟩
  · exact (congrArg (·.queue.rush) heq).trans (List.filter_congr fun c _ => hnot c)
  · exact (congrArg (·.queue.normal) heq).trans (List.filter_congr fun c _ => hnot c)
  · exact (congrArg (·.queue.count) heq).trans (congrArg (s.queue.count - ·) List.countP_append.symm)
  · rw [htm, State.retire_takes hg.1]
  · rw [htm']
    exact (TakeMemory.releaseAll_clean ..).trans (TakeMemory.lower_clean ..)
  · rw [htm']
    exact (TakeMemory.releaseAll_engine ..).trans (TakeMemory.lower_engine ..)
  · rw [htm']
    exact (TakeMemory.releaseAll_scrub ..).trans (TakeMemory.lower_scrub ..)
  · rw [htm']
    exact (TakeMemory.releaseAll_mem ..).trans (TakeMemory.lower_mem ..)
  · rw [htm]
    exact State.retire_dirty hg th ti
  · rw [htm]
    exact State.retire_bad hg th ti
  · rw [htm, State.retire_length]
  · rw [htm, State.retire_group hg th ti hlt]
    exact freed_by_place ..
  · by_cases hq : q = p
    · subst hq
      rw [hattn, hself]
      exact ⟨rfl, rfl, rfl, rfl, rfl, rfl, rfl, rfl, fun h => absurd rfl h⟩
    · rw [hattn, hother q hq]
      exact ⟨rfl, rfl, rfl, rfl, rfl, rfl, rfl, rfl, fun _ => ⟨rfl, rfl, rfl, rfl, rfl⟩⟩
  · rw [hself]
    exact ⟨rfl, rfl, rfl, rfl, rfl⟩

end Sys2Proof.Settled
end

section
/-! SUPPORT. The requests that only read: the bytes of their results in the words of R187, and what each of them answers. -/

namespace Sys2Proof.Machine

/-- A request whose owner accepts it with the bytes `bs` and leaves the part as it found it; `bs'` are the same bytes, as a rule
gives them. -/
theorem exec_accepts {i : Instr} {p : Port} {tag : Byte} {r : Request} {s : State} {bs bs' : List Byte}
    (hi : i.request? = some (p, tag, r)) (h : s.listens p) (ha : s.allows p (requestClass r)) (hf : formatOk r = true)
    (hd : isDiscard r = false)
    (hh : handle p r (s.heard p (operandLength r)) = accept bs (s.heard p (operandLength r))) (hb : bs = bs') :
    exec i s = .next (s.answered p tag (operandLength r) (s.marked p) { status := .ok, results := bs' }) :=
  exec_reads hi h ha hf hd (hb ▸ hh)

/-! ### The part as a request finds it -/

section
variable (s : State) (p : Port) (k : Nat)

@[simp] theorem State.heard_titles : (s.heard p k).titles = s.titles := rfl
@[simp] theorem State.heard_chapters : (s.heard p k).chapters = s.chapters := rfl
@[simp] theorem State.heard_queue : (s.heard p k).queue = s.queue := rfl
@[simp] theorem State.heard_lanes : (s.heard p k).lanes = s.lanes := rfl
@[simp] theorem State.heard_wheel : (s.heard p k).wheel = s.wheel := rfl
@[simp] theorem State.heard_rendMem : (s.heard p k).rendMem = s.rendMem := rfl
@[simp] theorem State.heard_holdTable : (s.heard p k).holdTable = s.holdTable := rfl
@[simp] theorem State.heard_cause : (s.heard p k).cause = s.cause := rfl

@[simp] theorem State.heard_role (q : Port) : ((s.heard p k).port q).role = (s.port q).role := by
  cases p <;> cases q <;> rfl

end

/-! ### Numbers and codes -/

theorem le_one (n : Nat) : le 1 n = [BitVec.ofNat 8 n] := rfl

/-- A signed number is the low 16 bits of its two's complement (R187). -/
theorem leI_eq (x : Int) : leI x = le 2 (x % 65536).toNat := by
  rw [leI, BitVec.toNat_ofInt]
  rfl

/-- A field that may be absent, as R187 gives it. -/
theorem optional_eq (size : Nat) (o : Option (List Byte)) :
    Machine.optional size o = match o with | none => List.replicate (size + 1) 0#8 | some bs => 1#8 :: bs := by
  cases o <;> rfl

theorem byte_yesNo (b : Bool) : BitVec.ofNat 8 (yesNo b) = if b then 1#8 else 0#8 := by cases b <;> rfl

theorem byte_chapterState (st : ChapterState) : BitVec.ofNat 8 st.code = match st with
    | .draft => 0#8 | .queued => 1#8 | .measuring => 2#8 | .encoding => 3#8 | .commitWait => 4#8 | .done => 5#8
    | .failed => 6#8 := by
  cases st <;> rfl

theorem byte_priority (q : Priority) : 
    BitVec.ofNat 8 q.code = match q with | .normal => 0#8 | .rush => 1#8 := by
  cases q <;> rfl

theorem byte_takeState (st : TakeState) :
    BitVec.ofNat 8 st.code = match st with | .recording => 0#8 | .closed => 1#8 | .faulted => 2#8 := by
  cases st <;> rfl

theorem byte_laneState (st : LaneState) :
    BitVec.ofNat 8 st.code = match st with | .idle => 0#8 | .measure => 1#8 | .encode => 2#8 | .commitWait => 3#8 := by
  cases st <;> rfl

theorem byte_endWay (w : EndWay) : BitVec.ofNat 8 w.code = match w with
    | .committed => 0#8 | .failed => 1#8 | .cancelled => 2#8 | .aborted => 3#8 | .deleted => 4#8 := by
  cases w <;> rfl

theorem byte_failCause (c : FailCause) : 
    BitVec.ofNat 8 c.code = match c with | .takeFault => 0#8 | .noSpace => 1#8 := by
  cases c <;> rfl

theorem byte_role (r : Role) :
    BitVec.ofNat 8 r.code = match r with | .ingest => 0#8 | .edit => 1#8 | .delivery => 2#8 | .full => 3#8 := by
  cases r <;> rfl

theorem byte_cause (c : ResetCause) : 
    BitVec.ofNat 8 (causeCode c) = match c with | .powerOn => 0#8 | .pin => 1#8 := by
  cases c <;> rfl

theorem byte_slotCode (e : Option (Fin 4)) :
    BitVec.ofNat 8 (slotCode e) = match e with | none => 0xFF#8 | some i => BitVec.ofNat 8 i.val := by
  cases e <;> rfl

/-! ### Chapters -/

theorem ChapterState.inLane_eq (st : ChapterState) :
    st.inLane = decide (st = .measuring ∨ st = .encoding ∨ st = .commitWait) := by
  cases st <;> rfl

theorem ChapterState.busy_eq (st : ChapterState) :
    st.busy = decide (st = .queued ∨ st = .measuring ∨ st = .encoding ∨ st = .commitWait) := by
  cases st <;> rfl

theorem RenderQueue.fifo_eq (q : RenderQueue) (x : Priority) :
    q.fifo x = match x with | .normal => q.normal | .rush => q.rush := by
  cases x <;> rfl

theorem chapterInfo_range {th c : Nat} {s : State} {t : Title} (h : s.title? th = some t) (hc : 127 < c) :
    chapterInfo th c s = refuse .range s :=
  (withTitle_some h).trans (if_pos hc)

theorem chapterInfo_undefined {th c : Nat} {s : State} {t : Title} (h : s.title? th = some t) (hc : c ≤ 127)
    (hk : s.chapter? ⟨th, c⟩ = none) : chapterInfo th c s = accept (le 1 0xFF) s := by
  refine (withTitle_some h).trans ((if_neg (Nat.not_lt.2 hc)).trans ?_)
  rw [hk]

theorem chapterInfo_defined {th c : Nat} {s : State} {t : Title} {k : Chapter} (h : s.title? th = some t) (hc : c ≤ 127)
    (hk : s.chapter? ⟨th, c⟩ = some k) : chapterInfo th c s = accept (chapterResults s ⟨th, c⟩ k) s := by
  refine (withTitle_some h).trans ((if_neg (Nat.not_lt.2 hc)).trans ?_)
  rw [hk]

/-! ### Takes -/

/-- R49: a RECORDING take has no sample length. -/
theorem Take.sampleLength_eq (t : Take) :
    t.sampleLength = if t.state = .recording then none else some ((t.blocks - 1) * 1024 + t.tail.getD 0) := by
  unfold Take.sampleLength
  cases t.state <;> rfl

theorem entryBytes_eq (m : TakeMemory) (e : Option Nat) :
    entryBytes m e = match e with
      | none => List.replicate 6 0#8
      | some g => 1#8 :: (le 2 g ++ le 2 (m.group g).refs ++ [if (m.group g).faulted then 1#8 else 0#8]) := by
  cases e with
  | none => rfl
  | some g => simp only [entryBytes, le_one, byte_yesNo, List.append_assoc]; rfl

theorem takeInfo_range {th take f : Nat} {s : State} {t : Title} {x : Take} (h : s.title? th = some t)
    (hx : s.take? th take = some x) (hf : x.groups.length ≤ f) : takeInfo th take f s = refuse .range s :=
  (withTitle_some h).trans ((withTake_some hx).trans (if_pos hf))

theorem takeInfo_taken {th take f : Nat} {s : State} {t : Title} {x : Take} (h : s.title? th = some t)
    (hx : s.take? th take = some x) (hf : f < x.groups.length) :
    takeInfo th take f s = accept (takeResults s.takeMem take f x) s :=
  (withTitle_some h).trans ((withTake_some hx).trans (if_neg (Nat.not_le.2 hf)))

/-! ### Lanes -/

theorem patternBytes_eq (w : Pattern) : patternBytes w =
    [w.e0, w.e1, w.e2, w.e3].map (fun e => match e with | none => 0xFF#8 | some i => BitVec.ofNat 8 i.val) := by
  simp only [patternBytes, Four.toList, le_one, byte_slotCode, List.flatMap_cons, List.flatMap_nil, List.map_cons, List.map_nil,
    List.cons_append, List.nil_append, List.append_nil]

theorem Wheel.names_iff (w : Wheel) (i : Fin 4) :
    w.names i = true ↔ some i ∈ [w.pattern.e0, w.pattern.e1, w.pattern.e2, w.pattern.e3] := by
  simp only [Wheel.names, Four.toList, List.any_eq_true, decide_eq_true_eq, exists_eq_right]

/-- R81, in the rule's words. -/
theorem State.dispatchable_eq (s : State) (i : Fin 4) :
    s.dispatchable i = decide ((s.lanes.get i).render = none ∧ (s.lanes.get i).enabled = true ∧
      some i ∈ [s.wheel.pattern.e0, s.wheel.pattern.e1, s.wheel.pattern.e2, s.wheel.pattern.e3]) := by
  rw [Bool.eq_iff_iff, decide_eq_true_eq, ← Wheel.names_iff, State.dispatchable, Bool.and_eq_true, Bool.and_eq_true,
    Option.isNone_iff_eq_none, and_assoc]

/-- R95: running, suspended or stalled, in the rule's words. -/
theorem State.running_eq (s : State) (i : Fin 4) :
    (s.running i).map (le 1) =
      if (s.lanes.get i).state = .measure ∨ (s.lanes.get i).state = .encode then
        some [if (s.lanes.get i).enabled = false then 1#8
          else if some i ∈ [s.wheel.pattern.e0, s.wheel.pattern.e1, s.wheel.pattern.e2, s.wheel.pattern.e3] then 0#8 else 2#8]
      else none := by
  have hcode : le 1 (if (s.lanes.get i).enabled = false then 1 else if s.wheel.names i then 0 else 2) =
      [if (s.lanes.get i).enabled = false then 1#8
        else if some i ∈ [s.wheel.pattern.e0, s.wheel.pattern.e1, s.wheel.pattern.e2, s.wheel.pattern.e3] then 0#8
        else 2#8] := by
    simp only [← Wheel.names_iff]
    cases (s.lanes.get i).enabled <;> cases s.wheel.names i <;> rfl
  unfold State.running
  cases hst : (s.lanes.get i).state with
  | measure | encode => simpa using hcode
  | idle | commitWait => simp

theorem enabledMask_eq (f : Four Lane) : enabledMask f =
    (if f.e0.enabled then 1 else 0) + (if f.e1.enabled then 2 else 0) + (if f.e2.enabled then 4 else 0) +
      (if f.e3.enabled then 8 else 0) := by
  simp only [enabledMask, yesNo, mul_ite, mul_one, mul_zero]

theorem GainRecord.flagsWord_eq (g : GainRecord) : g.flagsWord =
    (if g.silent then 1 else 0) + (if g.gainClamped then 2 else 0) + (if g.peakLimited then 4 else 0) +
      (if g.underTarget then 8 else 0) := by
  simp only [GainRecord.flagsWord, yesNo, mul_ite, mul_one, mul_zero]

/-- R95: one encoder of a lane. -/
theorem encoderBytes_eq (e : Encoder) : encoderBytes e =
    le 1 e.rendition ++ le 2 e.credit ++ [if e.starved then 1#8 else 0#8] ++ le 4 e.starvedFrames ++ le 4 e.pages.length := by
  simp only [encoderBytes, le_one (yesNo _), byte_yesNo]

/-- R95: the gain record and the saturation count of a lane in ENCODE or COMMIT_WAIT. -/
theorem bind_gain_eq (o : Option Render) :
    o.bind (fun r => r.stage.gain?) = match (o.map (fun r => r.stage) : Option Stage) with
      | some (.encode _ g n _) => some (g, n)
      | some (.commitWait g n _) => some (g, n)
      | _ => none := by
  cases o with
  | none => rfl
  | some r => cases hst : r.stage <;> simp [hst, Stage.gain?]

end Sys2Proof.Machine

namespace Sys2Proof.Settled

open Sys2Proof.Machine

/-- Settles O31: each of the five owners accepts and leaves the part as it found it, or refuses; what it gives is brought to the
words of R187 by the lemmas above, one for each kind of field. -/
theorem infoRequests : Obligations.InfoRequests := by
  unfold Obligations.InfoRequests
  intro opt mark chapterState priority laneState segment signed pattern
  refine ⟨fun p tag s th t h ha ht => ⟨?_, fun c hc => ?_, fun c hc hk => ?_, fun c k hc hk => ?_,
    fun take f x hx => ⟨fun hf => ?_, fun hf => ?_⟩⟩, fun p tag s h ha => ?_, fun p tag s h ha => ?_⟩
  · refine exec_accepts (r := .titleInfo th) rfl h ha rfl rfl (withTitle_some ht) ?_
    simp only [loudnessBytes, leI_eq, le_titleState, optional_eq, State.titleChapters, State.titleTakes,
      ChapterState.inLane_eq, State.heard_chapters, State.heard_takeMem, opt, signed, List.append_assoc] <;> rfl
  · exact exec_reads (r := .chapterInfo th c) rfl h ha rfl rfl (chapterInfo_range ht hc)
  · exact exec_reads (r := .chapterInfo th c) rfl h ha rfl rfl (chapterInfo_undefined ht hc hk)
  · refine exec_accepts (r := .chapterInfo th c) rfl h ha rfl rfl (chapterInfo_defined ht hc hk) ?_
    simp only [chapterResults, le_one, byte_chapterState, byte_priority, byte_yesNo, optional_eq, ChapterState.inLane_eq,
      ChapterState.busy_eq, decide_eq_true_eq, State.fifoPlace, RenderQueue.fifo_eq, State.imageList, ChapterId.key,
      Chapter.length, blockCount, State.heard_queue, State.heard_rendMem, opt, mark, chapterState, priority, segment,
      List.append_assoc, List.cons_append, List.nil_append] <;> rfl
  · exact exec_reads (r := .takeInfo th take f) rfl h ha rfl rfl (takeInfo_range ht hx hf)
  · refine exec_accepts (r := .takeInfo th take f) rfl h ha rfl rfl (takeInfo_taken ht hx hf) ?_
    have hnone : (fun e : Option Nat => e.isNone) = fun e => decide (e = none) := by funext e; cases e <;> rfl
    have hentry := funext (entryBytes_eq s.takeMem)
    simp only [takeResults, le_one, byte_takeState, optional_eq, hentry, hnone, Take.sampleLength_eq,
      apply_ite (Option.map (le 4)), Option.map_none, Option.map_some, State.heard_takeMem, opt, mark, List.append_assoc,
      List.cons_append, List.nil_append] <;> rfl
  · refine exec_accepts (r := .laneInfo) rfl h ha rfl rfl rfl ?_
    have hlanes : fourIndexes.flatMap (s.heard p (operandLength .laneInfo)).laneBytes =
      ([0, 1, 2, 3] : List (Fin 4)).flatMap (fun i => s.laneBytes i) := rfl
    have hpattern := funext patternBytes_eq
    have hencoder := funext encoderBytes_eq
    have hend := funext lastEndBytes.eq_1
    simp only [hlanes, hpattern, hencoder, hend, State.laneBytes, State.dispatchable_eq, State.running_eq, bind_gain_eq,
      chapterBytes, leI_eq, GainRecord.flagsWord_eq, enabledMask_eq, optional_eq, le_one, byte_laneState, byte_priority,
      byte_yesNo, byte_endWay, byte_failCause, State.heard_queue, State.heard_wheel, State.heard_lanes, opt, pattern, mark,
      signed, laneState, priority, List.append_assoc, List.cons_append, List.nil_append] <;> rfl
  · refine exec_accepts (r := .deviceStatus) rfl h ha rfl rfl rfl ?_
    have hid : le 2 0x7240 = [0x40#8, 0x72#8] := rfl
    have hroleA := State.heard_role s p (operandLength .deviceStatus) .a
    have hroleB := State.heard_role s p (operandLength .deviceStatus) .b
    have hroleC := State.heard_role s p (operandLength .deviceStatus) .c
    simp only [State.port, Ports.get] at hroleA hroleB hroleC
    simp only [hroleA, hroleB, hroleC, hid, le_one, byte_role, byte_cause, byte_yesNo, State.holdsOf, TakeMemory.countIn,
      State.heard_takeMem, State.heard_queue, State.heard_holdTable, State.heard_rendMem, State.heard_titles,
      State.heard_cause, List.map_cons, List.map_nil, List.append_assoc, List.cons_append, List.nil_append] <;> rfl

end Sys2Proof.Settled
end

section
/-! SUPPORT. What a table gives at any number after a change, and where the chapters are: in the FIFO that the record names, in a
lane, or in neither. Every step keeps that. -/

namespace Sys2Proof.Machine

/-! ### Tables -/

section
variable {α : Type} (t : Tab α)

theorem Tab.look_put (k : Nat) (v : α) (n : Nat) : Tab.look (Tab.put t k v) n = if n = k then some v else Tab.look t n := by
  split
  · next h => rw [h, Tab.look_put_same]
  · next h => exact Tab.look_put_other t v h

theorem Tab.look_drop (k n : Nat) : Tab.look (Tab.drop t k) n = if n = k then none else Tab.look t n := by
  split
  · next h => rw [h, Tab.look_drop_same]
  · next h => exact Tab.look_drop_other t h

theorem Tab.look_change (k : Nat) (f : α → α) (n : Nat) :
    Tab.look (Tab.change t k f) n = if n = k then (Tab.look t n).map f else Tab.look t n := by
  unfold Tab.change
  split
  · next hk =>
    split
    · next h => rw [h, hk, Option.map_none]
    · rfl
  · next v hk =>
    rw [Tab.look_put]
    split
    · next h => rw [h, hk, Option.map_some]
    · rfl

/-- Keeping the records whose numbers pass a test. -/
theorem Tab.look_filter (f : Nat → Bool) (n : Nat) :
    Tab.look (t.filter (fun e => f e.1)) n = if f n then Tab.look t n else none := by
  induction t with
  | nil => split <;> rfl
  | cons e t ih =>
    obtain ⟨i, w⟩ := e
    rw [List.filter_cons]
    by_cases hi : i = n
    · subst hi
      cases hf : f i with
      | true => simp [Tab.look]
      | false => simpa [hf] using ih
    · cases hf : f i with
      | true => simpa [Tab.look, hi] using ih
      | false => simpa [Tab.look, hi] using ih

/-- Changing the records and none of the numbers. -/
theorem Tab.look_map (g : Nat → α → α) (n : Nat) :
    Tab.look (t.map (fun e => (e.1, g e.1 e.2))) n = (Tab.look t n).map (g n) := by
  induction t with
  | nil => rfl
  | cons e t ih =>
    obtain ⟨i, w⟩ := e
    simp only [List.map_cons, Tab.look, ih]
    split
    · next h => rw [h, Option.map_some]
    · rfl

/-- A record of a table in which one was stored is that one, or was there. -/
theorem Tab.mem_put {t : Tab α} {k : Nat} {v : α} {e : Nat × α} (h : e ∈ Tab.put t k v) : e = (k, v) ∨ e ∈ t := by
  induction t with
  | nil => exact .inl (List.mem_singleton.1 h)
  | cons x t ih =>
    obtain ⟨i, w⟩ := x
    unfold Tab.put at h
    split at h
    · exact List.mem_cons.1 h
    · split at h
      · exact (List.mem_cons.1 h).imp_right (List.mem_cons_of_mem _)
      · rcases List.mem_cons.1 h with h | h
        · exact .inr (h ▸ List.mem_cons_self ..)
        · exact (ih h).imp_right (List.mem_cons_of_mem _)

end

/-! ### The numbers of chapters -/

/-- Chapters of the table have different numbers. -/
theorem ChapterId.key_inj {c d : ChapterId} (hc : c.index ≤ 127) (hd : d.index ≤ 127) (h : c.key = d.key) : c = d := by
  obtain ⟨ct, ci⟩ := c
  obtain ⟨dt, di⟩ := d
  simp only [ChapterId.key] at h hc hd
  obtain ⟨rfl, rfl⟩ : ct = dt ∧ ci = di := by omega
  rfl

theorem ChapterId.key_title {c : ChapterId} (hc : c.index ≤ 127) : c.key / 128 = c.title := by
  simp only [ChapterId.key]
  omega

/-! ### Where a chapter is -/

/-- A place of a chapter that waits for a lane or is in one. -/
inductive Spot where
  | fifo (q : Priority)
  | lane
  deriving DecidableEq

/-- R76, R83: the place that a chapter record names. -/
def Chapter.spot (k : Chapter) : Option Spot :=
  match k.state with
  | .queued => some (.fifo k.priority)
  | .measuring | .encoding | .commitWait => some .lane
  | .draft | .done | .failed => none

/-- The place that the record of chapter `c` names. A chapter without a record names none. -/
def State.spotOf (s : State) (c : ChapterId) : Option Spot := if c.index ≤ 127 then (s.chapter? c).bind Chapter.spot else none

/-- The chapters that stand in a place. -/
def State.standing (s : State) : Spot → List ChapterId
  | .fifo q => s.queue.fifo q
  | .lane => s.laneChapters

/-- R76, R83: every chapter stands once in the place that its record names, and nowhere else. -/
def State.SpotLaw (s : State) : Prop := ∀ x c, (s.standing x).count c = if s.spotOf c = some x then 1 else 0

theorem Chapter.spot_fifo {k : Chapter} {q : Priority} : k.spot = some (.fifo q) ↔ k.state = .queued ∧ k.priority = q := by
  unfold Chapter.spot
  split <;> simp [*]

theorem Chapter.spot_lane {k : Chapter} : k.spot = some .lane ↔ k.state.inLane = true := by
  unfold Chapter.spot
  split <;> simp [*, ChapterState.inLane]

theorem Chapter.spot_none {k : Chapter} : k.spot = none ↔ k.state.busy = false := by
  unfold Chapter.spot
  split <;> simp [*, ChapterState.busy, ChapterState.inLane]

theorem State.spotOf_some {s : State} {c : ChapterId} {x : Spot} (h : s.spotOf c = some x) :
    c.index ≤ 127 ∧ ∃ k, s.chapter? c = some k ∧ k.spot = some x := by
  unfold State.spotOf at h
  split at h
  · next hi => exact ⟨hi, Option.bind_eq_some_iff.1 h⟩
  · cases h

theorem State.spotOf_record {s : State} {c : ChapterId} {k : Chapter} (hi : c.index ≤ 127) (hk : s.chapter? c = some k) :
    s.spotOf c = k.spot := by
  rw [State.spotOf, if_pos hi, hk, Option.bind_some]

/-- R76, R83: the laws of `State.RenderLaw` on the FIFOs, the lanes and the chapter states say so. -/
theorem State.RenderLaw.spots {s : State} (h : s.RenderLaw) : s.SpotLaw := by
  obtain ⟨-, hn, hi, hk, hsome, -⟩ := h
  obtain ⟨hrush, hrest, -⟩ := List.nodup_append'.1 hn
  obtain ⟨hnormal, hlane, -⟩ := List.nodup_append'.1 hrest
  have hnodup : ∀ x, (s.standing x).Nodup := fun
    | .fifo .rush => hrush
    | .fifo .normal => hnormal
    | .lane => hlane
  have hall : ∀ x, s.standing x ⊆ s.queue.rush ++ (s.queue.normal ++ s.laneChapters) := fun
    | .fifo .rush => List.subset_append_left ..
    | .fifo .normal => List.subset_append_of_subset_right _ (List.subset_append_left ..)
    | .lane => List.subset_append_of_subset_right _ (List.subset_append_right ..)
  have hrecord : ∀ x c k, c.index ≤ 127 → s.chapter? c = some k → (k.spot = some x ↔ c ∈ s.standing x) := by
    intro x c k hc hck
    obtain ⟨hr, hnm, hl⟩ := hk c k hc hck
    match x with
    | .fifo .rush => exact Chapter.spot_fifo.trans hr
    | .fifo .normal => exact Chapter.spot_fifo.trans hnm
    | .lane => exact Chapter.spot_lane.trans hl
  intro x c
  rw [(hnodup x).count]
  congr 1
  refine propext ⟨fun hx => ?_, fun hx => ?_⟩
  · have hc := hi c (hall x hx)
    obtain ⟨k, hck⟩ := Option.ne_none_iff_exists'.1 (hsome c (hall x hx))
    rw [State.spotOf_record hc hck]
    exact (hrecord x c k hc hck).2 hx
  · obtain ⟨hc, k, hck, hkx⟩ := State.spotOf_some hx
    exact (hrecord x c k hc hck).1 hkx

end Sys2Proof.Machine
end

section
/-! SUPPORT. What one slot of the wheel can do to the chapters and the lanes, and what the end of a hold comes to, each said once. -/

namespace Sys2Proof.Machine

/-- The part with the same chapters, queue, published sets and holds, and each lane with the chapter it held. -/
structure State.Near (s t : State) : Prop where
  chapters  : t.chapters = s.chapters
  queue     : t.queue = s.queue
  sets      : t.rendMem.sets = s.rendMem.sets
  holdTable : t.holdTable = s.holdTable
  lanes     : ∀ i, (t.lanes.get i).render.map (fun r => r.chapter) = (s.lanes.get i).render.map (fun r => r.chapter)

theorem State.Near.refl (s : State) : State.Near s s := ⟨rfl, rfl, rfl, rfl, fun _ => rfl⟩

/-- A lane that goes on with its chapter. -/
theorem State.Near.setRender {s t : State} (h : State.Near s t) {i : Fin 4} {r r' : Render} (hr : (s.lanes.get i).render = some r)
    (hc : r'.chapter = r.chapter) : State.Near s (t.setRender i r') := by
  refine ⟨h.chapters, h.queue, h.sets, h.holdTable, fun j => ?_⟩
  rw [State.setRender_lanes]
  by_cases hj : j = i
  · subst hj
    rw [Four.get_set_same, hr, Option.map_some, Option.map_some, hc]
  · rw [Four.get_set_other _ _ hj, h.lanes]

/-- What a slot does to the lists of the ports, to the pool and to the page bytes. -/
theorem State.Near.store (s : State) (q : Ports) (pool : List Nat) (mem : Memory) :
    State.Near s { s with ports := q, rendMem := { s.rendMem with pool := pool, mem := mem } } :=
  ⟨rfl, rfl, rfl, rfl, fun _ => rfl⟩

theorem State.Near.render {s t : State} (h : State.Near s t) {i : Fin 4} {r : Render} (hr : (s.lanes.get i).render = some r) :
    ∃ r', (t.lanes.get i).render = some r' ∧ r'.chapter = r.chapter :=
  Option.map_eq_some_iff.1 ((h.lanes i).trans (congrArg (Option.map fun r => r.chapter) hr))

theorem State.Near.held {s t : State} (h : State.Near s t) (c : ChapterId) : t.held c = s.held c := by
  unfold State.held
  rw [h.holdTable]

/-- R85, R89 to R92, R152, R153: what a slot can leave: the chapters as they were, the chapter of a lane in the state of its next
pass, a failed render, or a commit of a chapter that no hold names. -/
inductive SlotChange (s : State) : State → Prop
  | kept (t : State) (hn : State.Near s t) : SlotChange s t
  | passed (t : State) (i : Fin 4) (r : Render) (st : ChapterState) (hn : State.Near s t) (hr : (s.lanes.get i).render = some r)
      (hst : st.inLane = true) : SlotChange s (t.changeChapter r.chapter (fun k => { k with state := st }))
  | failed (t : State) (i : Fin 4) (cause : FailCause) (group position : Option Nat) (hn : State.Near s t) :
      SlotChange s (t.failRender i cause group position)
  | committed (t : State) (i : Fin 4) (r : Render) (hn : State.Near s t) (hr : (s.lanes.get i).render = some r)
      (hh : s.held r.chapter = false) : SlotChange s (t.commit i)

section
variable {s : State} {i : Fin 4} {r : Render}

theorem failRead_change (g : Nat) : SlotChange s (s.failRead i r g) :=
  .failed _ _ _ _ _ ⟨rfl, rfl, rfl, rfl, fun _ => rfl⟩

theorem measured_change (hr : (s.lanes.get i).render = some r) (held : Option HeldBlock) (m : Meter) :
    SlotChange s (s.measured i r held m) := by
  have hn : ∀ r', r'.chapter = r.chapter → State.Near s (s.setRender i r') := fun _ => (State.Near.refl s).setRender hr
  unfold State.measured
  split
  · exact .passed _ i r .encoding (hn _ rfl) hr rfl
  · exact .kept _ (hn _ rfl)

theorem askCommit_change {t : State} (hn : State.Near s t) (hr : (s.lanes.get i).render = some r) (gain : GainRecord) (saturated : Nat)
    (es : List Encoder) : SlotChange s (t.askCommit i r gain saturated es) := by
  unfold State.askCommit
  split
  · exact .passed _ i r .commitWait (hn.setRender hr rfl) hr rfl
  · next hh => exact .committed _ i r (hn.setRender hr rfl) hr (by rwa [hn.held, Bool.not_eq_true] at hh)

theorem takeFrame_change (hr : (s.lanes.get i).render = some r) (held : Option HeldBlock) (gain : GainRecord) (saturated : Nat)
    (es : List Encoder) (pool : List Nat) (voiced : Bool) (ys : List Int) :
    SlotChange s (s.takeFrame i r held gain saturated es pool voiced ys) := by
  unfold State.takeFrame State.endEncode
  dsimp only
  split
  · exact askCommit_change (State.Near.store s _ pool _) hr _ _ _
  · exact .kept _ ((State.Near.store s _ pool _).setRender hr rfl)

theorem encoded_change (hr : (s.lanes.get i).render = some r) (a : Assembly) (held : Option HeldBlock) (gain : GainRecord)
    (saturated : Nat) (es : List Encoder) (xs : List Int) : SlotChange s (s.encoded i r a held gain saturated es xs) := by
  unfold State.encoded
  dsimp only
  split
  · exact takeFrame_change hr ..
  · exact .failed _ _ _ _ _ ((State.Near.store s s.ports _ s.rendMem.mem).setRender hr rfl)

/-- Everything a slot can leave is in the list. -/
theorem grantSlot_change {t : State} {f : Option Nat} (h : s.grantSlot f = some t) : SlotChange s t := by
  have idle : SlotChange s s := .kept s (State.Near.refl s)
  unfold State.grantSlot at h
  split at h
  · cases h; exact idle
  split at h
  · cases h; exact idle
  next r hr =>
  split at h
  · unfold State.progress at h
    split at h
    · split at h
      · cases h
      · cases h; exact failRead_change _
      · cases h; exact measured_change hr _ _
    · split at h
      · cases h
      · cases h; exact failRead_change _
      · cases h; exact encoded_change hr ..
    · cases h; exact idle
  · cases h; exact idle

end

/-- The part without the hold in a slot. -/
def State.withoutHold (s : State) (slot : Nat) : State :=
  { s with holdTable := { s.holdTable with holds := Tab.drop s.holdTable.holds slot } }

/-- R162: the end of a hold leaves the part without it, or the commit of a chapter that no other hold names. -/
theorem endHold_cases (s : State) (slot : Nat) : s.endHold slot = s ∨ s.endHold slot = s.withoutHold slot ∨
    ∃ i r, (s.lanes.get i).render = some r ∧ (s.withoutHold slot).held r.chapter = false ∧
      s.endHold slot = (s.withoutHold slot).commit i := by
  unfold State.endHold
  split
  · exact .inl rfl
  next h _ =>
  have hid : State.releaseCommit { s with holdTable := { s.holdTable with holds := Tab.drop s.holdTable.holds slot } } h.chapter =
    (s.withoutHold slot).releaseCommit h.chapter := rfl
  rw [hid]
  refine .inr ?_
  unfold State.releaseCommit
  split
  · exact .inl rfl
  next hh =>
  split
  · next k i _ hi =>
    split
    · cases hr : ((s.withoutHold slot).lanes.get i).render with
      | none =>
        left
        unfold State.commit
        rw [hr]
      | some r => exact .inr ⟨i, r, hr, by simpa [laneOf_spec hi hr] using hh, rfl⟩
    · exact .inl rfl
  · exact .inl rfl

end Sys2Proof.Machine
end

section
/-! SUPPORT. R76, R83: every operation on chapters, FIFOs and lanes leaves each chapter in the place that its record names. -/

namespace Sys2Proof.Machine

/-! ### The chapters of the lanes -/

/-- How often a lane record names chapter `c`: 0 or 1. -/
def Lane.countOf (l : Lane) (c : ChapterId) : Nat := if l.render.map (fun r => r.chapter) = some c then 1 else 0

theorem Lane.count_chapter (l : Lane) (c : ChapterId) : (l.render.map (fun r => r.chapter)).toList.count c = l.countOf c := by
  unfold Lane.countOf
  cases l.render with
  | none => rfl
  | some r => simp [List.count_singleton]

theorem State.laneChapters_eq (s : State) :
    s.laneChapters = s.lanes.toList.flatMap (fun l => (l.render.map (fun r => r.chapter)).toList) := by
  unfold State.laneChapters
  congr 1
  funext l
  cases l.render <;> rfl

theorem State.count_laneChapters (s : State) (c : ChapterId) : s.laneChapters.count c =
    s.lanes.e0.countOf c + s.lanes.e1.countOf c + s.lanes.e2.countOf c + s.lanes.e3.countOf c := by
  simp only [State.laneChapters_eq, Four.toList, List.flatMap_cons, List.flatMap_nil, List.count_append, List.count_nil,
    Lane.count_chapter]
  omega

/-- One lane record replaced: what it named goes, and what the new one names comes. -/
theorem State.count_laneChapters_set {s t : State} {i : Fin 4} {l : Lane} (h : t.lanes = s.lanes.set i l) (c : ChapterId) :
    t.laneChapters.count c + (s.lanes.get i).countOf c = s.laneChapters.count c + l.countOf c := by
  rw [State.count_laneChapters, State.count_laneChapters, h]
  match i with
  | 0 | 1 | 2 | 3 => simp only [Four.set, Four.get]; omega

theorem State.mem_laneChapters {s : State} {i : Fin 4} {r : Render} (h : (s.lanes.get i).render = some r) :
    0 < s.laneChapters.count r.chapter := by
  have hset := State.count_laneChapters_set (s := s) (t := s.setLane i { s.lanes.get i with render := none }) rfl r.chapter
  simp only [Lane.countOf, h, Option.map_some, Option.map_none, if_true] at hset
  simp at hset
  omega

theorem State.laneOf_none {s : State} {c : ChapterId} (h : s.laneOf c = none) : s.laneChapters.count c = 0 := by
  have hi : ∀ i, (s.lanes.get i).countOf c = 0 := by
    intro i
    have hmem : i ∈ fourIndexes := by match i with | 0 | 1 | 2 | 3 => decide
    have := List.find?_eq_none.1 h i hmem
    unfold Lane.countOf
    cases hr : (s.lanes.get i).render <;> simp_all
  have h0 := hi 0
  have h1 := hi 1
  have h2 := hi 2
  have h3 := hi 3
  rw [State.count_laneChapters]
  simp only [Four.get] at h0 h1 h2 h3
  omega

theorem State.laneOf_render {s : State} {c : ChapterId} {i : Fin 4} (h : s.laneOf c = some i) :
    ∃ r, (s.lanes.get i).render = some r ∧ r.chapter = c := by
  have hf := List.find?_some h
  cases hr : (s.lanes.get i).render with
  | none => simp [hr] at hf
  | some r => exact ⟨r, rfl, by simpa [hr] using hf⟩

/-! ### How chapters leave and join the places -/

/-- The end of a render without a commit takes its chapter out of the lane. -/
theorem State.standing_endLane {s : State} {i : Fin 4} {r : Render} (hr : (s.lanes.get i).render = some r)
    (mark : Render → LastEnd) (x : Spot) (c : ChapterId) : ((s.endLane i mark).standing x).count c =
      (s.standing x).count c - if x = .lane ∧ c = r.chapter then 1 else 0 := by
  have he : (s.endLane i mark).queue = s.queue := by unfold State.endLane; rw [hr]
  have hl : (s.endLane i mark).lanes = s.lanes.set i ((s.lanes.get i).vacate (mark r)) := by unfold State.endLane; rw [hr]
  cases x with
  | fifo q => simp [State.standing, he]
  | lane =>
    have := State.count_laneChapters_set hl c
    simp only [Lane.countOf, Lane.vacate, hr, Option.map_none, Option.map_some, Option.some.injEq, reduceCtorEq, if_false,
      eq_comm (a := r.chapter)] at this
    simp only [State.standing, true_and]
    omega

theorem State.standing_endRender (s : State) (d : ChapterId) (way : EndWay) (x : Spot) (c : ChapterId) :
    ((s.endRender d way).standing x).count c = (s.standing x).count c - if x = .lane ∧ c = d then 1 else 0 := by
  unfold State.endRender
  split
  · next h =>
    split
    · next hx =>
      obtain ⟨rfl, rfl⟩ := hx
      simp [State.standing, State.laneOf_none h]
    · simp
  · next i h =>
    obtain ⟨r, hr, rfl⟩ := State.laneOf_render h
    exact State.standing_endLane hr _ _ _

@[simp] theorem State.endLane_chapters (s : State) (i : Fin 4) (mark : Render → LastEnd) :
    (s.endLane i mark).chapters = s.chapters := by
  unfold State.endLane
  split <;> rfl

@[simp] theorem State.endRender_chapters (s : State) (c : ChapterId) (way : EndWay) :
    (s.endRender c way).chapters = s.chapters := by
  unfold State.endRender
  split
  · rfl
  · exact State.endLane_chapters ..

@[simp] theorem State.unqueue_chapters (s : State) (c : ChapterId) (k : Chapter) (way : EndWay) :
    (s.unqueue c k way).chapters = s.chapters := by
  unfold State.unqueue
  dsimp only
  split
  · split
    · rfl
    · exact State.endRender_chapters ..
  · rfl

namespace State.SpotLaw

variable {s t : State}

/-- A change that leaves every place, and the place that every record names. -/
theorem congr (h : s.SpotLaw) (hx : ∀ x c, (t.standing x).count c = (s.standing x).count c)
    (hc : ∀ c, t.spotOf c = s.spotOf c) : t.SpotLaw := by
  intro x c
  rw [hx, hc]
  exact h x c

/-- A change that touches one chapter alone, and leaves it where its new record says. -/
theorem move (h : s.SpotLaw) {c : ChapterId} (hi : c.index ≤ 127)
    (hrec : ∀ n, n ≠ c.key → Tab.look t.chapters n = Tab.look s.chapters n)
    (hx : ∀ x d, d ≠ c → (t.standing x).count d = (s.standing x).count d)
    (hself : ∀ x, (t.standing x).count c = if (t.chapter? c).bind Chapter.spot = some x then 1 else 0) : t.SpotLaw := by
  intro x d
  by_cases hd : d = c
  · subst hd
    rw [hself, State.spotOf, if_pos hi]
  · have hspot : t.spotOf d = s.spotOf d := by
      unfold State.spotOf State.chapter?
      split
      · next hdi => rw [hrec _ fun hk => hd (ChapterId.key_inj hdi hi hk)]
      · rfl
    rw [hx x d hd, hspot]
    exact h x d

/-- How often a chapter stands in a place, by its record. -/
theorem count_record (h : s.SpotLaw) {c : ChapterId} {k : Chapter} (hi : c.index ≤ 127) (hk : s.chapter? c = some k) (x : Spot) :
    (s.standing x).count c = if k.spot = some x then 1 else 0 := by
  rw [h x c, State.spotOf_record hi hk]

/-- The chapter of a lane has a record that says so. -/
theorem lane_record (h : s.SpotLaw) {i : Fin 4} {r : Render} (hr : (s.lanes.get i).render = some r) :
    r.chapter.index ≤ 127 ∧ ∃ k, s.chapter? r.chapter = some k ∧ k.spot = some .lane := by
  have hpos := State.mem_laneChapters hr
  have hlane := h .lane r.chapter
  simp only [State.standing] at hlane
  refine State.spotOf_some ?_
  by_contra hne
  rw [if_neg hne] at hlane
  omega

/-- The chapter of a FIFO entry has a record that says so. -/
theorem fifo_record (h : s.SpotLaw) {q : Priority} {c : ChapterId} (hc : c ∈ s.queue.fifo q) :
    c.index ≤ 127 ∧ ∃ k, s.chapter? c = some k ∧ k.spot = some (.fifo q) := by
  have hpos := List.count_pos_iff.2 hc
  have hfifo := h (.fifo q) c
  simp only [State.standing] at hfifo
  refine State.spotOf_some ?_
  by_contra hne
  rw [if_neg hne] at hfifo
  omega

/-- A record stored in the place of one that names the same place. -/
theorem setChapter (h : s.SpotLaw) {c : ChapterId} {k k' : Chapter} (hi : c.index ≤ 127) (hk : s.chapter? c = some k)
    (hs : k'.spot = k.spot) : (s.setChapter c k').SpotLaw := by
  refine h.move hi (fun n hn => Tab.look_put_other _ _ hn) (fun _ _ _ => rfl) fun x => ?_
  rw [State.chapter?, State.setChapter_chapters, Tab.look_put_same, Option.bind_some, hs]
  exact h.count_record hi hk x

end State.SpotLaw

end Sys2Proof.Machine
end

section
/-! SUPPORT. R76, R83: every step keeps each chapter in the place that its record names. -/

namespace Sys2Proof.Machine

/-! ### The FIFOs -/

@[simp] theorem RenderQueue.fifo_fewer (q : RenderQueue) (n : Nat) (p : Priority) : (q.fewer n).fifo p = q.fifo p := by
  cases p <;> rfl

theorem RenderQueue.fifo_remove (q : RenderQueue) (f : ChapterId → Bool) (p : Priority) :
    (q.remove f).fifo p = (q.fifo p).filter (fun c => !f c) := by
  cases p <;> rfl

theorem RenderQueue.count_append (q : RenderQueue) (p p' : Priority) (c d : ChapterId) :
    ((q.append p c).fifo p').count d = (q.fifo p').count d + if p' = p ∧ d = c then 1 else 0 := by
  have one : [c].count d = if d = c then 1 else 0 := by
    simp only [List.count_singleton, beq_iff_eq, eq_comm (a := c)]
  cases p <;> cases p' <;> simp [RenderQueue.append, RenderQueue.fifo, one]

theorem count_filter_ite {α : Type} [DecidableEq α] (f : α → Bool) (l : List α) (a : α) :
    (l.filter f).count a = if f a then l.count a else 0 := by
  split
  · next h => exact List.count_filter h
  · next h => exact List.count_eq_zero.2 fun hm => h (List.mem_filter.1 hm).2

/-- The record that a taken edit stores. -/
def Chapter.edited (k : Chapter) : Chapter := { k with stale := k.stale || k.published, state := k.state.afterEdit }

theorem ChapterState.afterEdit_of_inLane {st : ChapterState} (h : st.inLane = true) : st.afterEdit = .queued := by
  cases st with
  | measuring | encoding | commitWait => rfl
  | _ => cases h

/-- R29: an edit of a chapter in no lane leaves it in its place. -/
theorem Chapter.spot_edited {k : Chapter} (h : k.state.inLane = false) : k.edited.spot = k.spot := by
  obtain ⟨st, _, _, _, _, _, _, _⟩ := k
  cases st with
  | measuring | encoding | commitWait => cases h
  | _ => rfl

/-- R29: the records after a taken edit. -/
theorem State.look_editChapter (s : State) (c : ChapterId) (k : Chapter) (n : Nat) :
    Tab.look (s.editChapter c k).chapters n = if n = c.key then some k.edited else Tab.look s.chapters n := by
  have hput : (s.editChapter c k).chapters = Tab.put s.chapters c.key k.edited := by
    unfold State.editChapter
    dsimp only
    split
    · exact State.endRender_chapters ..
    · rfl
  rw [hput, Tab.look_put]

/-- R30: an edit of a chapter in a lane takes it from there to the tail of the FIFO of its priority. -/
theorem State.standing_editChapter (s : State) (c : ChapterId) {k : Chapter} (hl : k.state.inLane = true) (x : Spot)
    (d : ChapterId) : ((s.editChapter c k).standing x).count d =
      ((s.standing x).count d - if x = .lane ∧ d = c then 1 else 0) + if x = .fifo k.priority ∧ d = c then 1 else 0 := by
  have hend := State.standing_endRender (s.setChapter c k.edited) c .aborted x d
  have hset : (s.setChapter c k.edited).standing x = s.standing x := by cases x <;> rfl
  rw [← hset, ← hend]
  unfold State.editChapter
  dsimp only
  rw [if_pos hl]
  cases x with
  | fifo p =>
    simp only [Spot.fifo.injEq]
    exact RenderQueue.count_append ..
  | lane => rfl

namespace State.SpotLaw

variable {s t : State}

/-- R37 step 1: a chapter taken out of its FIFO or its lane is in no place. -/
theorem count_unqueue (h : s.SpotLaw) {c : ChapterId} {k : Chapter} (hi : c.index ≤ 127) (hk : s.chapter? c = some k)
    (way : EndWay) (x : Spot) (d : ChapterId) :
    ((s.unqueue c k way).standing x).count d = if d = c then 0 else (s.standing x).count d := by
  have hself := h.count_record hi hk
  unfold State.unqueue
  dsimp only
  split
  · split
    · next hq =>
      have hspot : k.spot = some (.fifo k.priority) := Chapter.spot_fifo.2 ⟨hq, rfl⟩
      cases x with
      | fifo q =>
        simp only [State.standing, RenderQueue.fifo_fewer, RenderQueue.fifo_remove, count_filter_ite, Bool.not_eq_true',
          decide_eq_false_iff_not, ite_not]
      | lane =>
        split
        · next hd => exact hd ▸ (hself .lane).trans (by simp [hspot])
        · rfl
    · next hb hq =>
      have hspot : k.spot = some .lane := by
        refine Chapter.spot_lane.2 ?_
        cases hst : k.state <;> simp_all [ChapterState.busy, ChapterState.inLane]
      have hend := State.standing_endRender s c way x d
      have hfew : (({ s.endRender c way with queue := (s.endRender c way).queue.fewer 1 } : State).standing x).count d =
          ((s.endRender c way).standing x).count d := by
        cases x with
        | fifo q => simp [State.standing]
        | lane => rfl
      rw [hfew, hend]
      by_cases hd : d = c
      · rw [hd, hself, hspot]
        cases x <;> simp
      · simp [hd]
  · next hb =>
    have hspot : k.spot = none := Chapter.spot_none.2 (by simpa using hb)
    split
    · next hd => exact hd ▸ (hself x).trans (by simp [hspot])
    · rfl

/-- R37: a chapter taken out of its place whose record goes. -/
theorem deleted (h : s.SpotLaw) {c : ChapterId} {k : Chapter} (hi : c.index ≤ 127) (hk : s.chapter? c = some k) (way : EndWay) :
    ((s.unqueue c k way).eraseChapter c k).SpotLaw := by
  have hrec : ∀ n, Tab.look ((s.unqueue c k way).eraseChapter c k).chapters n =
      if n = c.key then none else Tab.look s.chapters n := by
    intro n
    rw [← State.unqueue_chapters s c k way]
    exact Tab.look_drop _ _ n
  refine h.move hi (fun n hn => (hrec n).trans (if_neg hn)) (fun x d hd => ?_) fun x => ?_
  · exact (h.count_unqueue hi hk way x d).trans (if_neg hd)
  · rw [State.chapter?, hrec, if_pos rfl]
    exact (h.count_unqueue hi hk way x c).trans (if_pos rfl)

/-- R79: a chapter taken out of its place whose record is that of no place. -/
theorem cancelled (h : s.SpotLaw) {c : ChapterId} {k : Chapter} (hi : c.index ≤ 127) (hk : s.chapter? c = some k) :
    (s.cancel c k).SpotLaw := by
  have hrec : ∀ n, Tab.look (s.cancel c k).chapters n =
      if n = c.key then some { k with state := k.afterCancel } else Tab.look s.chapters n := by
    intro n
    rw [← State.unqueue_chapters s c k .cancelled]
    exact Tab.look_put _ _ _ n
  refine h.move hi (fun n hn => (hrec n).trans (if_neg hn)) (fun x d hd => ?_) fun x => ?_
  · exact (h.count_unqueue hi hk .cancelled x d).trans (if_neg hd)
  · have hspot : Chapter.spot { k with state := k.afterCancel } = none := by
      unfold Chapter.afterCancel
      split <;> rfl
    rw [State.chapter?, hrec, if_pos rfl, Option.bind_some, hspot]
    exact (h.count_unqueue hi hk .cancelled x c).trans (if_pos rfl)

/-- R78: a chapter in no place joins the tail of a FIFO, which its record names from then on. -/
theorem queued (h : s.SpotLaw) {c : ChapterId} {k : Chapter} (hi : c.index ≤ 127) (hk : s.chapter? c = some k)
    (hb : k.state.busy = false) (q : Priority) : (s.enqueue c k q).SpotLaw := by
  have hcount : ∀ x d, ((s.enqueue c k q).standing x).count d =
      (s.standing x).count d + if x = .fifo q ∧ d = c then 1 else 0 := by
    intro x d
    cases x with
    | fifo p =>
      simp only [Spot.fifo.injEq]
      rw [State.standing, State.standing, ← RenderQueue.count_append]
      cases p <;> rfl
    | lane => rfl
  refine h.move hi (fun n hn => Tab.look_put_other _ _ hn) (fun x d hd => by simp [hcount, hd]) fun x => ?_
  have hrec : (s.enqueue c k q).chapter? c = some { k with priority := q, state := .queued } := Tab.look_put_same ..
  rw [hcount, h.count_record hi hk, Chapter.spot_none.2 hb, hrec]
  simp [Chapter.spot, eq_comm]

/-- R29, R30: an edit leaves a chapter of a FIFO in it, and takes one of a lane to the FIFO of its priority. -/
theorem edited (h : s.SpotLaw) {c : ChapterId} {k k' : Chapter} (hi : c.index ≤ 127) (hk : s.chapter? c = some k)
    (hst : k'.state = k.state) (hpr : k'.priority = k.priority) : (s.editChapter c k').SpotLaw := by
  have hspot : k'.spot = k.spot := by simp only [Chapter.spot, hst, hpr]
  by_cases hl : k'.state.inLane = true
  · have hcount := s.standing_editChapter c hl
    have hrec := s.look_editChapter c k'
    have hlane : k.spot = some .lane := hspot ▸ Chapter.spot_lane.2 hl
    have hnew : k'.edited.spot = some (.fifo k'.priority) :=
      Chapter.spot_fifo.2 ⟨ChapterState.afterEdit_of_inLane hl, rfl⟩
    refine h.move hi (fun n hn => (hrec n).trans (if_neg hn)) (fun x d hd => by simp [hcount, hd]) fun x => ?_
    rw [hcount, h.count_record hi hk, hlane, State.chapter?, hrec, if_pos rfl, Option.bind_some, hnew]
    cases x <;> simp [eq_comm]
  · have hput : s.editChapter c k' = s.setChapter c k'.edited := by
      unfold State.editChapter
      exact if_neg hl
    rw [hput]
    exact h.setChapter hi hk ((Chapter.spot_edited (by simpa using hl)).trans hspot)

end State.SpotLaw

end Sys2Proof.Machine
end

section
/-! SUPPORT. R76, R83: lanes that take a chapter, go on with it and give it up; titles retired; and every step. -/

namespace Sys2Proof.Machine

/-- R5: a record of the title after a title-level change. -/
def Chapter.markedStale (k : Chapter) : Chapter := if k.published = true then { k with stale := true } else k

theorem Chapter.spot_markedStale (k : Chapter) : k.markedStale.spot = k.spot := by
  unfold Chapter.markedStale
  split <;> rfl

theorem State.look_markStale (s : State) (th n : Nat) : Tab.look (s.markStale th).chapters n =
    (Tab.look s.chapters n).map (fun k => if n / 128 = th then k.markedStale else k) := by
  rw [← Tab.look_map s.chapters (fun n k => if n / 128 = th then k.markedStale else k)]
  congr 1
  refine List.map_congr_left fun e _ => ?_
  unfold Chapter.markedStale
  split_ifs <;> simp_all

namespace State.SpotLaw

variable {s t : State}

/-- R92, R152: a lane gives its chapter up, and the record of the chapter is that of no place. -/
theorem leaveLane (h : s.SpotLaw) {i : Fin 4} {r : Render} {l : Lane} {f : Chapter → Chapter}
    (hr : (s.lanes.get i).render = some r) (hl : l.render = none) (hlanes : t.lanes = s.lanes.set i l)
    (hq : ∀ q, t.queue.fifo q = s.queue.fifo q) (hc : t.chapters = Tab.change s.chapters r.chapter.key f)
    (hf : ∀ k, (f k).spot = none) : t.SpotLaw := by
  obtain ⟨hi, k, hk, hspot⟩ := h.lane_record hr
  have hcount : ∀ x d, (t.standing x).count d = (s.standing x).count d - if x = .lane ∧ d = r.chapter then 1 else 0 := by
    intro x d
    cases x with
    | fifo q => simp [State.standing, hq]
    | lane =>
      have hset := State.count_laneChapters_set hlanes d
      simp only [Lane.countOf, hl, hr, Option.map_none, Option.map_some, Option.some.injEq, reduceCtorEq, if_false,
        eq_comm (a := r.chapter)] at hset
      simp only [State.standing, true_and]
      omega
  have hrec : ∀ n, Tab.look t.chapters n =
      if n = r.chapter.key then (Tab.look s.chapters n).map f else Tab.look s.chapters n := by
    intro n
    rw [hc, Tab.look_change]
  have hself : t.chapter? r.chapter = some (f k) := by
    rw [State.chapter?, hrec, if_pos rfl]
    exact congrArg (Option.map f) hk
  refine h.move hi (fun n hn => (hrec n).trans (if_neg hn)) (fun x d hd => by simp [hcount, hd]) fun x => ?_
  rw [hcount, h.count_record hi hk, hspot, hself, Option.bind_some, hf]
  cases x <;> simp

theorem failRender (h : s.SpotLaw) (i : Fin 4) (cause : FailCause) (group position : Option Nat) :
    (s.failRender i cause group position).SpotLaw := by
  unfold State.failRender State.endLane
  split
  · exact h
  · next r hr =>
    exact h.leaveLane (l := (s.lanes.get i).vacate _) hr rfl rfl (RenderQueue.fifo_fewer _ 1) rfl fun _ => rfl

theorem commit (h : s.SpotLaw) (i : Fin 4) : (s.commit i).SpotLaw := by
  unfold State.commit
  split
  · exact h
  · next r hr =>
    exact h.leaveLane (l := (s.lanes.get i).vacate _) hr rfl rfl (RenderQueue.fifo_fewer _ 1) rfl fun _ => rfl

/-- The state of a chapter in a lane changes with the pass of the lane. -/
theorem passed (h : s.SpotLaw) {i : Fin 4} {r : Render} (hr : (s.lanes.get i).render = some r) {st : ChapterState}
    (hst : st.inLane = true) : (s.changeChapter r.chapter (fun k => { k with state := st })).SpotLaw := by
  obtain ⟨hi, k, hk, hspot⟩ := h.lane_record hr
  have hk' : Tab.look s.chapters r.chapter.key = some k := hk
  have hput : s.changeChapter r.chapter (fun k => { k with state := st }) = s.setChapter r.chapter { k with state := st } := by
    simp only [State.changeChapter, State.setChapter, Tab.change, hk']
  rw [hput]
  exact h.setChapter hi hk ((Chapter.spot_lane.2 hst).trans hspot.symm)

theorem near (h : s.SpotLaw) (hn : State.Near s t) : t.SpotLaw := by
  have hlane : ∀ i c, (t.lanes.get i).countOf c = (s.lanes.get i).countOf c := fun i c => by
    unfold Lane.countOf
    rw [hn.lanes]
  refine h.congr (fun x c => ?_) fun c => ?_
  · cases x with
    | fifo q => rw [State.standing, State.standing, hn.queue]
    | lane =>
      have h0 := hlane 0 c
      have h1 := hlane 1 c
      have h2 := hlane 2 c
      have h3 := hlane 3 c
      simp only [Four.get] at h0 h1 h2 h3
      rw [State.standing, State.standing, State.count_laneChapters, State.count_laneChapters, h0, h1, h2, h3]
  · unfold State.spotOf State.chapter?
    rw [hn.chapters]

theorem slot (h : s.SpotLaw) (hc : SlotChange s t) : t.SpotLaw := by
  cases hc with
  | kept _ hn => exact h.near hn
  | passed t i r st hn hr hst =>
    obtain ⟨r', hr', hc⟩ := hn.render hr
    exact hc ▸ (h.near hn).passed hr' hst
  | failed t i cause group position hn => exact (h.near hn).failRender _ _ _ _
  | committed t i r hn => exact (h.near hn).commit i

theorem endHold (h : s.SpotLaw) (slot : Nat) : (s.endHold slot).SpotLaw := by
  have hw : (s.withoutHold slot).SpotLaw := h
  rcases endHold_cases s slot with he | he | ⟨i, r, hr, -, he⟩
  · rw [he]; exact h
  · rw [he]; exact hw
  · rw [he]; exact hw.commit i

/-- R82: the head of a FIFO goes to a lane that holds no chapter. -/
theorem dispatchTo (h : s.SpotLaw) {i : Fin 4} {c : ChapterId} {origin : Priority} {q : RenderQueue}
    (hr : (s.lanes.get i).render = none) (hc : c ∈ s.queue.fifo origin)
    (hq : ∀ p d, (q.fifo p).count d = (s.queue.fifo p).count d - if p = origin ∧ d = c then 1 else 0) :
    (s.dispatchTo i c origin q).SpotLaw := by
  unfold State.dispatchTo
  split
  · next t k _ hk =>
    obtain ⟨hi, k', hk', hspot⟩ := h.fifo_record hc
    cases hk.symm.trans hk'
    generalize hu : ({ s with
      queue := q
      lanes := s.lanes.set i { s.lanes.get i with render := some (startRender c origin t k) }
      chapters := Tab.put s.chapters c.key { k with state := .measuring } } : State) = u
    have hcount : ∀ x d, (u.standing x).count d = ((s.standing x).count d - if x = .fifo origin ∧ d = c then 1 else 0) +
        if x = .lane ∧ d = c then 1 else 0 := by
      intro x d
      subst hu
      cases x with
      | fifo p => simpa [State.standing] using hq p d
      | lane =>
        have hset := State.count_laneChapters_set (s := s) (t := { s with
          queue := q
          lanes := s.lanes.set i { s.lanes.get i with render := some (startRender c origin t k) }
          chapters := Tab.put s.chapters c.key { k with state := .measuring } }) rfl d
        simpa [Lane.countOf, hr, startRender, State.standing, eq_comm (a := c)] using hset
    have hrec : u.chapters = Tab.put s.chapters c.key { k with state := .measuring } := by subst hu; rfl
    refine h.move hi (fun n hn => by rw [hrec, Tab.look_put_other _ _ hn]) (fun x d hd => by simp [hcount, hd]) fun x => ?_
    rw [hcount, h.count_record hi hk, hspot, State.chapter?, hrec, Tab.look_put_same]
    cases x <;> simp [Chapter.spot, eq_comm]
  · exact h

theorem dispatchOne (h : s.SpotLaw) : s.dispatchOne.SpotLaw := by
  have htail : ∀ (c d : ChapterId) (rest : List ChapterId), rest.count d = (c :: rest).count d - if d = c then 1 else 0 := by
    intro c d rest
    rw [List.count_cons]
    by_cases hd : d = c
    · simp [hd]
    · simp [hd, Ne.symm hd]
  unfold State.dispatchOne
  split
  · exact h
  · next i hi =>
    have hr : (s.lanes.get i).render = none := by
      have := List.find?_some hi
      simp only [State.dispatchable, Bool.and_eq_true, Option.isNone_iff_eq_none] at this
      exact this.1.1
    split
    · next c rest hrush =>
      refine h.dispatchTo hr (by simp [RenderQueue.fifo, hrush]) fun p d => ?_
      cases p with
      | rush => simpa [RenderQueue.fifo, hrush] using htail c d rest
      | normal => simp [RenderQueue.fifo]
    · next c rest _ hnormal =>
      refine h.dispatchTo hr (by simp [RenderQueue.fifo, hnormal]) fun p d => ?_
      cases p with
      | normal => simpa [RenderQueue.fifo, hnormal] using htail c d rest
      | rush => simp [RenderQueue.fifo]
    · exact h

theorem markStale (h : s.SpotLaw) (th : Nat) : (s.markStale th).SpotLaw := by
  refine h.congr (fun _ _ => rfl) fun c => ?_
  have hspot : ∀ k : Chapter, (if c.key / 128 = th then k.markedStale else k).spot = k.spot := fun k => by
    split
    · exact Chapter.spot_markedStale k
    · rfl
  simp only [State.spotOf, State.chapter?, State.look_markStale, Option.bind_map, Function.comp_def, hspot]

/-- R16: the chapters of a title that has none in a lane leave the FIFOs, and their records go. -/
theorem retire (h : s.SpotLaw) {th : Nat} (hl : s.titleInLane th = false) (t : Title) : (s.retire th t).SpotLaw := by
  have hspot : ∀ c, (s.retire th t).spotOf c = if c.title = th then none else s.spotOf c := by
    intro c
    have hrec : Tab.look (s.retire th t).chapters c.key = if c.key / 128 = th then none else Tab.look s.chapters c.key := by
      rw [State.retire_eq]
      exact (Tab.look_filter s.chapters (fun n => decide (n / 128 ≠ th)) c.key).trans (by simp)
    unfold State.spotOf State.chapter?
    rw [hrec]
    by_cases hi : c.index ≤ 127
    · rw [if_pos hi, if_pos hi, ChapterId.key_title hi]
      split <;> rfl
    · rw [if_neg hi, if_neg hi, ite_self]
  have hfifo : ∀ q c, ((s.retire th t).standing (.fifo q)).count c =
      if c.title = th then 0 else (s.standing (.fifo q)).count c := by
    intro q c
    have hq : (s.retire th t).standing (.fifo q) = (s.queue.remove (ofTitle th)).fifo q := by
      rw [State.retire_eq]
      cases q <;> rfl
    rw [hq, RenderQueue.fifo_remove, count_filter_ite]
    by_cases hth : c.title = th <;> simp [ofTitle, hth, State.standing]
  have hlane : (s.retire th t).standing .lane = s.standing .lane := by rw [State.retire_eq]; rfl
  have hnone : ∀ c : ChapterId, c.title = th → s.spotOf c ≠ some .lane := by
    intro c hth hc
    obtain ⟨hi, k, hk, hs⟩ := State.spotOf_some hc
    have hin := State.titleInLane_of_mem (th := th) (Tab.mem_of_look hk) ((ChapterId.key_title hi).trans hth)
      (Chapter.spot_lane.1 hs)
    rw [hl] at hin
    cases hin
  intro x c
  rw [hspot]
  by_cases hth : c.title = th
  · rw [if_pos hth]
    cases x with
    | fifo q => exact (hfifo q c).trans (if_pos hth)
    | lane => exact hlane ▸ (h .lane c).trans (if_neg (hnone c hth))
  · rw [if_neg hth]
    cases x with
    | fifo q => exact ((hfifo q c).trans (if_neg hth)).trans (h (.fifo q) c)
    | lane => exact hlane ▸ h .lane c

/-- R23: a chapter that has a record for the first time is in no place. -/
theorem defined (h : s.SpotLaw) {c : ChapterId} (hi : c.index ≤ 127) (hn : s.chapter? c = none) :
    (s.setChapter c newChapter).SpotLaw := by
  refine h.move hi (fun n hn => Tab.look_put_other _ _ hn) (fun _ _ _ => rfl) fun x => ?_
  have hnone : s.spotOf c = none := by rw [State.spotOf, hn, Option.bind_none, ite_self]
  rw [State.chapter?, State.setChapter_chapters, Tab.look_put_same]
  exact (h x c).trans (by rw [hnone]; rfl)

theorem resetPort (h : s.SpotLaw) (p : Port) : (s.resetPort p).SpotLaw :=
  foldl_keeps (P := State.SpotLaw) (fun _ slot h => endHold h slot) _ h

theorem expireHold (h : s.SpotLaw) : s.expireHold.SpotLaw := by
  unfold State.expireHold
  split
  · exact h
  · next slot _ _ => exact State.SpotLaw.endHold (s := s.changePort _ _) h slot

end State.SpotLaw

/-! ### Every step -/

/-- R69 to R71: a discard is about take memory and the sequences of the ports. -/
theorem State.commitDiscard_eq (s : State) (p : Port) (take first last : Nat) :
    ∃ m q, s.commitDiscard p take first last = { s with takeMem := m, ports := q } := by
  unfold State.commitDiscard
  dsimp only
  split
  · exact ⟨_, _, rfl⟩
  · exact ⟨_, _, rfl⟩

/-- R57, R58: a failed program is about take memory and the sequences of the ports. -/
theorem State.blockFailed_eq (s : State) (take : Nat) (t : Take) (block g : Nat) :
    ∃ m q, s.blockFailed take t block g = { s with takeMem := m, ports := q } := by
  unfold State.blockFailed
  dsimp only
  split
  · exact ⟨_, _, rfl⟩
  · split
    · exact ⟨_, s.ports, rfl⟩
    · exact ⟨_, s.ports, rfl⟩

namespace State.SpotLaw

variable {s t : State}

/-- Requests keep the places. -/
theorem change {p : Port} (hc : Change p s t) (h : s.SpotLaw) : t.SpotLaw := by
  cases hc with
  | titleParams th => exact State.SpotLaw.markStale (s := s.setTitle th _) h th
  | tone th t r => exact State.SpotLaw.markStale (s := s.moveTone th t r) h th
  | retired th t _ hl => exact h.retire hl t
  | defined th index t _ hi hn => exact h.defined hi hn
  | deleted th index t k _ hi hk => exact h.deleted hi hk _
  | edited th index t k k' up dn _ hi hk hst hpr =>
    exact State.SpotLaw.edited (s := s.setTakeMem ((s.takeMem.raise up).lower dn)) h hi hk hst hpr
  | queued th index t k q _ hi hk hb => exact h.queued hi hk hb q
  | cancelled th index t k _ hi hk => exact h.cancelled hi hk
  | lanes m => exact h.near ⟨rfl, rfl, rfl, rfl, fun i => by match i with | 0 | 1 | 2 | 3 => rfl⟩
  | closed slot => exact h.endHold slot
  | portReset => exact h.resetPort p
  | discarded take first last =>
    obtain ⟨m, q, he⟩ := s.commitDiscard_eq p take first last
    rw [he]
    exact h
  | _ => exact h

/-- Every step keeps the places. -/
theorem kept : Kept State.SpotLaw where
  ports _ _ _ h := h
  pending _ _ h := h
  resetHeld _ _ h := h
  change _ _ _ hc h := h.change hc
  endFetch _ _ h := h
  endHold _ slot h := h.endHold slot
  eraseStart _ h := h
  eraseDone _ h := h
  eraseFailed _ h := h
  dispatch _ h := h.dispatchOne
  slot _ _ _ ht h := h.slot (grantSlot_change ht)
  advance _ h := h
  clock _ h := h
  expire _ h := h.expireHold
  abandon _ h := h
  restart _ _ _ _ _ _ := fun x c => by
    simp only [State.spotOf, State.chapter?, State.restart, State.reset, Tab.look, Option.bind_none, ite_self]
    match x with | .fifo .rush | .fifo .normal | .lane => rfl
  blockDone _ _ _ _ _ _ h := h
  blockFailed s take t block g _ _ h := by
    obtain ⟨m, q, he⟩ := s.blockFailed_eq take t block g
    rw [he]
    exact h

end State.SpotLaw

end Sys2Proof.Machine
end

section
/-! SUPPORT. R19, R151, R154: what the records say of publication, the published sets and the holds, chapter by chapter; what leaves
it as it is, and what a commit, a deletion and a hold change. -/

namespace Sys2Proof.Machine

/-! ### The laws, chapter by chapter -/

/-- R19: what a record says of publication: the published flag, the serial, and whether the stale flag is set where the published
flag is clear. -/
def Chapter.publication (k : Chapter) : Bool × Nat × Bool := (k.published, k.serial, k.stale && !k.published)

/-- What the record of number `n` says of publication. -/
def State.publicationOf (s : State) (n : Nat) : Option (Bool × Nat × Bool) := (Tab.look s.chapters n).map Chapter.publication

/-- R19, R151: what a record says of publication agrees with the published set of its number. -/
def Agrees : Option (Bool × Nat × Bool) → Option PublishedSet → Prop
  | none, set => set = none
  | some (published, serial, staleAlone), set => (published = true ↔ serial ≠ 0) ∧ serial ≤ 65535 ∧ staleAlone = false ∧
      set.map (fun x => x.serial) = if published then some serial else none

/-- R154: the image that a hold names is published with the serial of the hold. -/
def Hold.Names (h : Hold) (sets : Tab PublishedSet) : Prop :=
  h.chapter.index ≤ 127 ∧ ∃ set im, Tab.look sets h.chapter.key = some set ∧ set.serial = h.serial ∧
    set.image? h.rendition = some im

/-- `State.PublishedLaw` and `State.HoldLaw` (see `State.published_iff`), chapter by chapter and hold by hold. -/
def State.Published (s : State) : Prop :=
  (∀ n, Agrees (s.publicationOf n) (Tab.look s.rendMem.sets n)) ∧ ∀ e ∈ s.holdTable.holds, e.2.Names s.rendMem.sets

theorem agrees_record {k : Chapter} {set : Option PublishedSet} : Agrees (some k.publication) set ↔
    (k.published = true ↔ k.serial ≠ 0) ∧ k.serial ≤ 65535 ∧ (k.stale = true → k.published = true) ∧
    (k.published = true → ∃ x, set = some x ∧ x.serial = k.serial) ∧ (k.published = false → set = none) := by
  have hstale : (k.stale && !k.published) = false ↔ (k.stale = true → k.published = true) := by
    cases k.stale <;> cases k.published <;> simp
  have hset : set.map (fun x => x.serial) = (if k.published then some k.serial else none) ↔
      (k.published = true → ∃ x, set = some x ∧ x.serial = k.serial) ∧ (k.published = false → set = none) := by
    cases k.published <;> simp
  unfold Agrees Chapter.publication
  dsimp only
  rw [hstale, hset]

theorem State.published_iff {s : State} : s.Published ↔ s.PublishedLaw ∧ s.HoldLaw := by
  have hrec : ∀ {n k}, Tab.look s.chapters n = some k → s.publicationOf n = some k.publication := fun h => by
    rw [State.publicationOf, h, Option.map_some]
  constructor
  · rintro ⟨hagree, hholds⟩
    refine ⟨⟨fun n k hk => agrees_record.1 (hrec hk ▸ hagree n), fun n set hset => ?_⟩, fun e he => ?_⟩
    · have ha := hagree n
      cases hk : Tab.look s.chapters n with
      | some k => exact ⟨k, rfl⟩
      | none =>
        rw [State.publicationOf, hk, hset] at ha
        cases ha
    · obtain ⟨hi, set, im, hset, hser, him⟩ := hholds e he
      have ha := hagree e.2.chapter.key
      cases hk : Tab.look s.chapters e.2.chapter.key with
      | none =>
        rw [State.publicationOf, hk, hset] at ha
        cases ha
      | some k =>
        rw [hrec hk, hset] at ha
        obtain ⟨-, -, -, hpub, hnot⟩ := agrees_record.1 ha
        have hp : k.published = true := by
          by_contra hp
          cases hnot (by simpa using hp)
        obtain ⟨x, hx, hxs⟩ := hpub hp
        cases hx
        exact ⟨hi, k, set, im, hk, hp, hxs.symm.trans hser, hset, hser, him⟩
  · rintro ⟨⟨hlaw, hsets⟩, hholds⟩
    refine ⟨fun n => ?_, fun e he => ?_⟩
    · cases hk : Tab.look s.chapters n with
      | some k => exact hrec hk ▸ agrees_record.2 (hlaw n k hk)
      | none =>
        rw [State.publicationOf, hk]
        cases hset : Tab.look s.rendMem.sets n with
        | none => rfl
        | some set =>
          obtain ⟨k, hk'⟩ := hsets n set hset
          cases hk.symm.trans hk'
    · obtain ⟨hi, k, set, im, -, -, -, hset, hser, him⟩ := hholds e he
      exact ⟨hi, set, im, hset, hser, him⟩

/-- R33: the serials that commits assign are 1 to 65535. -/
theorem nextSerial_range {n : Nat} (h : n ≤ 65535) : nextSerial n ≠ 0 ∧ nextSerial n ≤ 65535 := by
  unfold nextSerial
  split <;> omega

/-! ### What changes nothing of it -/

/-- `t` says of publication what `s` says, has the same published sets, and each of its holds names what one of `s` names. -/
structure State.SamePublication (s t : State) : Prop where
  records : ∀ n, t.publicationOf n = s.publicationOf n
  sets    : t.rendMem.sets = s.rendMem.sets
  holds   : ∀ e ∈ t.holdTable.holds, ∃ d ∈ s.holdTable.holds, e.2.chapter = d.2.chapter ∧ e.2.rendition = d.2.rendition ∧
    e.2.serial = d.2.serial

theorem Hold.Names.congr {h h' : Hold} {sets : Tab PublishedSet} (hn : h.Names sets) (hc : h'.chapter = h.chapter)
    (hr : h'.rendition = h.rendition) (hs : h'.serial = h.serial) : h'.Names sets := by
  unfold Hold.Names
  rw [hc, hr, hs]
  exact hn

/-- A hold names an image by its chapter's set alone. -/
theorem Hold.Names.of_look {h : Hold} {sets sets' : Tab PublishedSet} (hn : h.Names sets)
    (hl : Tab.look sets' h.chapter.key = Tab.look sets h.chapter.key) : h.Names sets' := by
  unfold Hold.Names
  rw [hl]
  exact hn

section
variable {s t : State}

theorem State.Published.same (h : s.Published) (hs : State.SamePublication s t) : t.Published := by
  obtain ⟨hagree, hholds⟩ := h
  refine ⟨fun n => ?_, fun e he => ?_⟩
  · rw [hs.records, hs.sets]
    exact hagree n
  · obtain ⟨d, hd, hc, hr, hser⟩ := hs.holds e he
    rw [hs.sets]
    exact (hholds d hd).congr hc hr hser

/-- The holds and the sets as they were, and records that say the same of publication. -/
theorem State.SamePublication.of_records (hr : ∀ n, t.publicationOf n = s.publicationOf n)
    (hs : t.rendMem.sets = s.rendMem.sets) (hh : t.holdTable = s.holdTable) : State.SamePublication s t :=
  ⟨hr, hs, fun e he => ⟨e, hh ▸ he, rfl, rfl, rfl⟩⟩

/-- The records and the sets as they were, and holds that name what holds named. -/
theorem State.SamePublication.of_holds (hr : t.chapters = s.chapters) (hs : t.rendMem.sets = s.rendMem.sets)
    (hh : ∀ e ∈ t.holdTable.holds, ∃ d ∈ s.holdTable.holds, e.2.chapter = d.2.chapter ∧ e.2.rendition = d.2.rendition ∧
      e.2.serial = d.2.serial) : State.SamePublication s t :=
  ⟨fun n => by rw [State.publicationOf, State.publicationOf, hr], hs, hh⟩

/-- One record replaced by one that says the same of publication. -/
theorem State.publicationOf_replaced {c : ChapterId} {k k' : Chapter} (hk : s.chapter? c = some k)
    (hp : k'.publication = k.publication)
    (hl : ∀ n, Tab.look t.chapters n = if n = c.key then some k' else Tab.look s.chapters n) (n : Nat) :
    t.publicationOf n = s.publicationOf n := by
  unfold State.publicationOf
  rw [hl]
  split
  · next hn =>
    rw [hn, show Tab.look s.chapters c.key = some k from hk]
    exact congrArg some hp
  · rfl

/-- One record changed in what does not concern publication. -/
theorem State.publicationOf_change {n : Nat} {f : Chapter → Chapter} (hf : ∀ k, (f k).publication = k.publication)
    (hl : t.chapters = Tab.change s.chapters n f) (m : Nat) : t.publicationOf m = s.publicationOf m := by
  unfold State.publicationOf
  rw [hl, Tab.look_change]
  split
  · rw [Option.map_map]
    exact congrArg (fun g => Option.map g _) (funext hf)
  · rfl

/-- R29: a taken edit marks a published chapter stale. -/
theorem Chapter.publication_edited (k : Chapter) : k.edited.publication = k.publication := by
  unfold Chapter.publication Chapter.edited
  cases k.published <;> simp

theorem Chapter.publication_markedStale (k : Chapter) : k.markedStale.publication = k.publication := by
  unfold Chapter.publication Chapter.markedStale
  split
  · next h => simp [h]
  · rfl

theorem State.endLane_same (s : State) (i : Fin 4) (mark : Render → LastEnd) : State.SamePublication s (s.endLane i mark) := by
  unfold State.endLane
  split
  · exact .of_records (fun _ => rfl) rfl rfl
  · exact .of_records (fun _ => rfl) rfl rfl

theorem State.endRender_same (s : State) (c : ChapterId) (way : EndWay) : State.SamePublication s (s.endRender c way) := by
  unfold State.endRender
  split
  · exact .of_records (fun _ => rfl) rfl rfl
  · exact State.endLane_same ..

end

end Sys2Proof.Machine
end

section
/-! SUPPORT. R19, R151, R154: every step keeps the agreement of records, published sets and holds. -/

namespace Sys2Proof.Machine

namespace State

variable {s t : State}

theorem unqueue_same (s : State) (c : ChapterId) (k : Chapter) (way : EndWay) : SamePublication s (s.unqueue c k way) := by
  have hend := s.endRender_same c way
  unfold State.unqueue
  dsimp only
  split
  · split
    · exact .of_records (fun _ => rfl) rfl rfl
    · exact ⟨hend.records, hend.sets, hend.holds⟩
  · exact .of_records (fun _ => rfl) rfl rfl

theorem cancel_same {c : ChapterId} {k : Chapter} (hk : s.chapter? c = some k) : SamePublication s (s.cancel c k) := by
  have hq := s.unqueue_same c k .cancelled
  refine ⟨publicationOf_replaced hk (k' := { k with state := k.afterCancel }) rfl fun n => ?_, hq.sets, hq.holds⟩
  rw [← State.unqueue_chapters s c k .cancelled]
  exact Tab.look_put _ _ _ n

theorem editChapter_same {c : ChapterId} {k k' : Chapter} (hk : s.chapter? c = some k) (hp : k'.publication = k.publication) :
    SamePublication s (s.editChapter c k') := by
  have hend := (s.setChapter c k'.edited).endRender_same c .aborted
  have hrec := publicationOf_replaced hk ((Chapter.publication_edited k').trans hp) (s.look_editChapter c k')
  have hsame : (s.editChapter c k').rendMem.sets = s.rendMem.sets ∧ ∀ e ∈ (s.editChapter c k').holdTable.holds,
      ∃ d ∈ s.holdTable.holds, e.2.chapter = d.2.chapter ∧ e.2.rendition = d.2.rendition ∧ e.2.serial = d.2.serial := by
    unfold State.editChapter
    dsimp only
    split
    · exact ⟨hend.sets, hend.holds⟩
    · exact ⟨rfl, fun e he => ⟨e, he, rfl, rfl, rfl⟩⟩
  exact ⟨hrec, hsame.1, hsame.2⟩

theorem enqueue_same {c : ChapterId} {k : Chapter} (hk : s.chapter? c = some k) (q : Priority) :
    SamePublication s (s.enqueue c k q) :=
  .of_records (publicationOf_replaced hk (k' := { k with priority := q, state := .queued }) rfl fun _ => Tab.look_put ..) rfl rfl

theorem markStale_same (s : State) (th : Nat) : SamePublication s (s.markStale th) := by
  refine .of_records (fun n => ?_) rfl rfl
  unfold State.publicationOf
  rw [State.look_markStale, Option.map_map]
  refine congrArg (fun g => Option.map g _) (funext fun k => ?_)
  rw [Function.comp_apply]
  split
  · exact Chapter.publication_markedStale k
  · rfl

theorem dispatchOne_same (s : State) : SamePublication s s.dispatchOne := by
  have hsame : SamePublication s s := .of_records (fun _ => rfl) rfl rfl
  have hto : ∀ i c origin q, SamePublication s (s.dispatchTo i c origin q) := by
    intro i c origin q
    unfold State.dispatchTo
    split
    · next k _ hk =>
      exact .of_records (publicationOf_replaced hk (k' := { k with state := .measuring }) rfl fun _ => Tab.look_put ..) rfl rfl
    · exact hsame
  unfold State.dispatchOne
  split
  · exact hsame
  · split
    · exact hto ..
    · exact hto ..
    · exact hsame

theorem failRender_same (s : State) (i : Fin 4) (cause : FailCause) (group position : Option Nat) :
    SamePublication s (s.failRender i cause group position) := by
  unfold State.failRender
  split
  · exact .of_records (fun _ => rfl) rfl rfl
  · next r _ =>
    have hend := s.endLane_same i (Render.failedEnd cause group position)
    refine ⟨fun n => ?_, hend.sets, hend.holds⟩
    rw [← hend.records]
    exact publicationOf_change (f := fun k => { k with state := .failed }) (fun _ => rfl) rfl n

theorem Near.same (h : Near s t) : SamePublication s t :=
  .of_records (fun n => by rw [State.publicationOf, State.publicationOf, h.chapters]) h.sets h.holdTable

theorem SamePublication.not_held (h : SamePublication s t) {c : ChapterId} (hh : s.held c = false) : t.held c = false := by
  rw [← Bool.not_eq_true, held_iff] at hh ⊢
  rintro ⟨e, he, hc⟩
  obtain ⟨d, hd, hed, -⟩ := h.holds e he
  exact hh ⟨d, hd, hed.symm.trans hc⟩

namespace Published

/-- A change at some numbers alone, none of them that of a chapter that a hold names. -/
theorem of_agrees (h : s.Published)
    (hrec : ∀ n, Agrees (t.publicationOf n) (Tab.look t.rendMem.sets n) ∨
      t.publicationOf n = s.publicationOf n ∧ Tab.look t.rendMem.sets n = Tab.look s.rendMem.sets n)
    (hh : ∀ e ∈ t.holdTable.holds, e ∈ s.holdTable.holds ∧
      Tab.look t.rendMem.sets e.2.chapter.key = Tab.look s.rendMem.sets e.2.chapter.key) : t.Published := by
  refine ⟨fun n => ?_, fun e he => ?_⟩
  · rcases hrec n with hn | ⟨hp, hl⟩
    · exact hn
    · rw [hp, hl]
      exact h.1 n
  · exact (h.2 e (hh e he).1).of_look (hh e he).2

/-- R152, R154: a chapter that no hold names has a number of its own among theirs. -/
theorem key_ne (h : s.Published) {c : ChapterId} (hi : c.index ≤ 127) (hh : s.held c = false) {e : Nat × Hold}
    (he : e ∈ s.holdTable.holds) : e.2.chapter.key ≠ c.key := by
  intro hk
  rw [← Bool.not_eq_true, held_iff] at hh
  exact hh ⟨e, he, ChapterId.key_inj (h.2 e he).1 hi hk⟩

/-- R23: a chapter that has a record for the first time is not published. -/
theorem defined (h : s.Published) {c : ChapterId} (hn : s.chapter? c = none) : (s.setChapter c newChapter).Published := by
  have hnone : s.publicationOf c.key = none := by rw [State.publicationOf, show Tab.look s.chapters c.key = none from hn]; rfl
  have hset : Tab.look s.rendMem.sets c.key = none := by
    have ha := h.1 c.key
    rwa [hnone] at ha
  refine h.of_agrees (fun n => ?_) fun e he => ⟨he, rfl⟩
  unfold State.publicationOf
  rw [State.setChapter_chapters, State.setChapter_rendMem, Tab.look_put]
  split
  · next hk =>
    rw [hk, hset]
    exact .inl (agrees_record.2 (by simp [newChapter]))
  · exact .inr ⟨rfl, rfl⟩

/-- R37: a chapter that no hold names loses its record and its set. -/
theorem eraseChapter (h : s.Published) {c : ChapterId} (hi : c.index ≤ 127) (hh : s.held c = false) (k : Chapter) :
    (s.eraseChapter c k).Published := by
  have hsets : ∀ n, Tab.look (s.eraseChapter c k).rendMem.sets n = if n = c.key then none else Tab.look s.rendMem.sets n :=
    fun n => Tab.look_drop _ _ n
  have hrec : ∀ n, (s.eraseChapter c k).publicationOf n = if n = c.key then none else s.publicationOf n := by
    intro n
    unfold State.publicationOf
    rw [show (s.eraseChapter c k).chapters = Tab.drop s.chapters c.key from rfl, Tab.look_drop]
    split <;> rfl
  refine h.of_agrees (fun n => ?_) fun e he => ⟨he, (hsets _).trans (if_neg (h.key_ne hi hh he))⟩
  rw [hrec, hsets]
  split
  · exact .inl rfl
  · exact .inr ⟨rfl, rfl⟩

/-- R16: the chapters of a title that no hold names lose their records and their sets. -/
theorem retire (h : s.Published) {th : Nat} (hh : s.holdTable.holds.any (fun e => decide (e.2.chapter.title = th)) = false)
    (t : Title) : (s.retire th t).Published := by
  have hsets : ∀ n, Tab.look (s.retire th t).rendMem.sets n = if n / 128 = th then none else Tab.look s.rendMem.sets n := by
    intro n
    rw [State.retire_eq]
    exact (Tab.look_filter s.rendMem.sets (fun n => decide (n / 128 ≠ th)) n).trans (by simp)
  have hrec : ∀ n, (s.retire th t).publicationOf n = if n / 128 = th then none else s.publicationOf n := by
    intro n
    unfold State.publicationOf
    rw [State.retire_eq]
    have hf := Tab.look_filter s.chapters (fun n => decide (n / 128 ≠ th)) n
    dsimp only
    rw [hf]
    by_cases hn : n / 128 = th <;> simp [hn]
  have hheld : (s.retire th t).holdTable = s.holdTable := by rw [State.retire_eq]
  refine h.of_agrees (fun n => ?_) fun e he => ?_
  · rw [hrec, hsets]
    split
    · exact .inl rfl
    · exact .inr ⟨rfl, rfl⟩
  · rw [hheld] at he
    refine ⟨he, (hsets _).trans (if_neg ?_)⟩
    rw [ChapterId.key_title (h.2 e he).1]
    intro hth
    have hany := List.any_eq_false.1 hh e he
    exact hany (decide_eq_true hth)

/-- R152: the commit of a chapter that no hold names publishes it with its new serial. -/
theorem commit (h : s.Published) (hs : s.SpotLaw) {i : Fin 4} {r : Render} (hr : (s.lanes.get i).render = some r)
    (hh : s.held r.chapter = false) : (s.commit i).Published := by
  obtain ⟨hi, k, hk, -⟩ := hs.lane_record hr
  have hk' : Tab.look s.chapters r.chapter.key = some k := hk
  have hold := h.1 r.chapter.key
  rw [State.publicationOf, hk', Option.map_some] at hold
  obtain ⟨-, hserial, -⟩ := agrees_record.1 hold
  obtain ⟨hne, hle⟩ := nextSerial_range hserial
  have hassigned : s.commitSerial r.chapter = nextSerial k.serial := by rw [State.commitSerial, hk]
  unfold State.commit
  rw [hr]
  refine h.of_agrees (fun n => ?_) fun e he => ⟨he, Tab.look_put_other _ _ (h.key_ne hi hh he)⟩
  unfold State.publicationOf RenditionMemory.publish
  dsimp only
  rw [Tab.look_change, Tab.look_put, hassigned]
  by_cases hn : n = r.chapter.key
  · left
    rw [if_pos hn, if_pos hn, hn, hk']
    exact agrees_record.2 (by simp [Chapter.committed, hne, hle])
  · right
    rw [if_neg hn, if_neg hn]
    exact ⟨rfl, rfl⟩

theorem slot (h : s.Published) (hs : s.SpotLaw) (hc : SlotChange s t) : t.Published := by
  cases hc with
  | kept _ hn => exact h.same hn.same
  | passed t i r st hn =>
    refine (h.same hn.same).same (.of_records (fun n => ?_) rfl rfl)
    exact publicationOf_change (f := fun k => { k with state := st }) (fun _ => rfl) rfl n
  | failed t i cause group position hn => exact (h.same hn.same).same (t.failRender_same ..)
  | committed t i r hn hr hh =>
    obtain ⟨r', hr', hc⟩ := hn.render hr
    exact (h.same hn.same).commit (hs.near hn) hr' (by rwa [hc, hn.held])

theorem endHold (h : s.Published) (hs : s.SpotLaw) (slot : Nat) : (s.endHold slot).Published := by
  have hw : (s.withoutHold slot).Published :=
    h.same (.of_holds rfl rfl fun e he => ⟨e, (List.mem_filter.1 he).1, rfl, rfl, rfl⟩)
  rcases endHold_cases s slot with he | he | ⟨i, r, hr, hh, he⟩
  · rw [he]; exact h
  · rw [he]; exact hw
  · rw [he]; exact hw.commit hs hr hh

/-- R157: the hold that OPEN-READ makes names the image that the rule looks up. -/
theorem opened (h : s.Published) {p : Port} {c : ChapterId} {rendition slot : Nat} {k : Chapter} {set : PublishedSet} {im : Image}
    (hi : c.index ≤ 127) (hk : s.chapter? c = some k) (hp : k.published = true)
    (hset : Tab.look s.rendMem.sets c.key = some set) (him : set.image? rendition = some im) :
    State.Published { s with holdTable := s.holdTable.open_ slot (newHold p c rendition k.serial s.holdTable.limit) } := by
  refine ⟨h.1, fun e he => ?_⟩
  rcases Tab.mem_put he with rfl | he
  · have ha := h.1 c.key
    rw [State.publicationOf, show Tab.look s.chapters c.key = some k from hk, Option.map_some] at ha
    obtain ⟨-, -, -, hpub, -⟩ := agrees_record.1 ha
    obtain ⟨x, hx, hser⟩ := hpub hp
    cases hset.symm.trans hx
    exact ⟨hi, set, im, hset, hser, him⟩
  · exact h.2 e he

end Published

/-! ### Every step -/

/-- The places of the chapters, and the agreement on publication, which commits keep because of them. -/
def Sound (s : State) : Prop := s.SpotLaw ∧ s.Published

theorem Sound.endHold (h : s.Sound) (slot : Nat) : (s.endHold slot).Sound := ⟨h.1.endHold slot, h.2.endHold h.1 slot⟩

theorem Sound.resetPort (h : s.Sound) (p : Port) : (s.resetPort p).Sound :=
  foldl_keeps (P := State.Sound) (fun _ slot h => Sound.endHold h slot) _ h

theorem Published.change {p : Port} (h : s.Published) (hs : s.SpotLaw) (hc : Change p s t) : t.Published := by
  cases hc with
  | titleParams th t t' => exact State.Published.same (s := s.setTitle th t') h (markStale_same _ th)
  | tone th t r => exact State.Published.same (s := s.moveTone th t r) h (markStale_same _ th)
  | retired th t _ _ _ hh => exact h.retire hh t
  | defined th index t _ _ hn => exact h.defined hn
  | deleted th index t k _ hi _ hh =>
    have hq := s.unqueue_same ⟨th, index⟩ k .deleted
    exact (h.same hq).eraseChapter hi (hq.not_held hh) k
  | edited th index t k k' up dn _ _ hk _ _ hpub hser hstale =>
    have hp : k'.publication = k.publication := by simp only [Chapter.publication, hpub, hser, hstale]
    exact State.Published.same (s := s.setTakeMem ((s.takeMem.raise up).lower dn)) h (editChapter_same hk hp)
  | queued th index t k q _ _ hk => exact h.same (enqueue_same hk q)
  | cancelled th index t k _ _ hk => exact h.same (cancel_same hk)
  | opened th index rendition slot k set i hi hp hk hset him => exact h.opened hi hk hp hset him
  | reading slot offset length x hx =>
    refine h.same (.of_holds rfl rfl fun e he => ?_)
    rcases Tab.mem_put he with rfl | he
    · exact ⟨(slot, x), Tab.mem_of_look hx, rfl, rfl, rfl⟩
    · exact ⟨e, he, rfl, rfl, rfl⟩
  | closed slot => exact h.endHold hs slot
  | portReset => exact (Sound.resetPort ⟨hs, h⟩ p).2
  | discarded take first last =>
    obtain ⟨m, q, he⟩ := s.commitDiscard_eq p take first last
    rw [he]
    exact h
  | _ => exact h

/-- Every step keeps both. -/
theorem Sound.kept : Kept State.Sound where
  ports _ _ _ h := h
  pending _ _ h := h
  resetHeld _ _ h := h
  change _ _ _ hc h := ⟨h.1.change hc, h.2.change h.1 hc⟩
  endFetch s slot h := by
    refine ⟨h.1, h.2.same (.of_holds rfl rfl fun e he => ?_)⟩
    change e ∈ Tab.change s.holdTable.holds slot _ at he
    unfold Tab.change at he
    split at he
    · exact ⟨e, he, rfl, rfl, rfl⟩
    · next x hx =>
      rcases Tab.mem_put he with rfl | he
      · exact ⟨(slot, x), Tab.mem_of_look hx, rfl, rfl, rfl⟩
      · exact ⟨e, he, rfl, rfl, rfl⟩
  endHold _ slot h := h.endHold slot
  eraseStart _ h := h
  eraseDone _ h := h
  eraseFailed _ h := h
  dispatch s h := ⟨h.1.dispatchOne, h.2.same s.dispatchOne_same⟩
  slot _ _ _ ht h := ⟨h.1.slot (grantSlot_change ht), h.2.slot h.1 (grantSlot_change ht)⟩
  advance _ h := h
  clock _ h := by
    refine ⟨h.1, h.2.same (.of_holds rfl rfl fun e he => ?_)⟩
    obtain ⟨d, hd, rfl⟩ := List.mem_map.1 he
    refine ⟨d, hd, ?_⟩
    split
    · exact ⟨rfl, rfl, rfl⟩
    · exact ⟨rfl, rfl, rfl⟩
  expire s h := by
    unfold State.expireHold
    split
    · exact h
    · next slot _ _ => exact Sound.endHold (s := s.changePort _ _) h slot
  abandon _ h := by
    refine ⟨h.1, h.2.same (.of_holds rfl rfl fun e he => ?_)⟩
    obtain ⟨d, hd, rfl⟩ := List.mem_map.1 he
    exact ⟨d, hd, rfl, rfl, rfl⟩
  restart s cause ra rb rc h := ⟨SpotLaw.kept.restart s cause ra rb rc h.1, fun _ => rfl, fun _ he => nomatch he⟩
  blockDone _ _ _ _ _ _ h := h
  blockFailed s take t block g _ _ h := by
    obtain ⟨m, q, he⟩ := s.blockFailed_eq take t block g
    rw [he]
    exact h

end State

end Sys2Proof.Machine

namespace Sys2Proof.Settled

open Sys2Proof.Machine

/-- Settles O58: the laws on publication, chapter by chapter, are kept by every step with the places of the chapters, which the
law on renders gives; the commits of a step go by the record of the chapter that the lane holds. -/
theorem stepsKeepPublished : Obligations.StepsKeepPublished := by
  unfold Obligations.StepsKeepPublished
  intro s t _ hr hp hh hstep
  exact State.published_iff.1 (State.Sound.kept.step hstep ⟨hr.spots, State.published_iff.2 ⟨hp, hh⟩⟩).2

end Sys2Proof.Settled
end

section
/-! SUPPORT. What the chapter requests answer: the checks that they share, one equation for each outcome. -/

namespace Sys2Proof.Machine

/-! ### The checks that chapter requests share -/

section
variable {th c : Nat} {s : State} {t : Title} {k : Chapter}

theorem withOpenTitle_opened {f : Title → Answer × State} (h : s.title? th = some t) (hst : t.state = .opened) :
    withOpenTitle th s f = f t :=
  (withTitle_some h).trans (if_neg (not_not.2 hst))

theorem withChapter_range {f : Chapter → Answer × State} (hc : 127 < c) : withChapter th c s f = refuse .range s := if_pos hc

theorem withChapter_none {f : Chapter → Answer × State} (hc : c ≤ 127) (hk : s.chapter? ⟨th, c⟩ = none) :
    withChapter th c s f = refuse .badState s := by
  simp [withChapter, Nat.not_lt.2 hc, hk]

theorem withChapter_some {f : Chapter → Answer × State} (hc : c ≤ 127) (hk : s.chapter? ⟨th, c⟩ = some k) :
    withChapter th c s f = f k := by
  simp [withChapter, Nat.not_lt.2 hc, hk]

/-- R11, R20: a plan request of a chapter that has a record, in an OPEN title. -/
theorem withOpenChapter_some {f : Chapter → Answer × State} (h : s.title? th = some t) (hst : t.state = .opened) (hc : c ≤ 127)
    (hk : s.chapter? ⟨th, c⟩ = some k) : (withOpenTitle th s fun _ => withChapter th c s f) = f k :=
  (withOpenTitle_opened h hst).trans (withChapter_some hc hk)

end

/-- R29 to R31: the command of a request whose owner takes an edit. -/
theorem exec_edits {i : Instr} {p : Port} {tag : Byte} {r : Request} {s : State} {c : ChapterId} {k : Chapter} {m : TakeMemory}
    (hi : i.request? = some (p, tag, r)) (h : s.listens p) (ha : s.allows p (requestClass r)) (hf : formatOk r = true)
    (hd : isDiscard r = false)
    (hh : handle p r (s.heard p (operandLength r)) = takeEdit c k m (s.heard p (operandLength r))) :
    editTaken s p tag (operandLength r) c k m (exec i s) := by
  rw [exec_request hi]
  exact edit_taken h ha hf hd hh

/-! ### DEFINE-CHAPTER and SET-CHAPTER-PADS -/

section
variable {th c : Nat} {s : State} {t : Title} {k : Chapter}

theorem defineChapter_range (h : s.title? th = some t) (hst : t.state = .opened) (hc : 127 < c) :
    defineChapter th c s = refuse .range s :=
  (withOpenTitle_opened h hst).trans (if_pos hc)

theorem defineChapter_defined (h : s.title? th = some t) (hst : t.state = .opened) (hc : c ≤ 127)
    (hk : s.chapter? ⟨th, c⟩ = some k) : defineChapter th c s = refuse .badState s := by
  refine (withOpenTitle_opened h hst).trans ((if_neg (Nat.not_lt.2 hc)).trans ?_)
  rw [hk]

theorem defineChapter_taken (h : s.title? th = some t) (hst : t.state = .opened) (hc : c ≤ 127)
    (hk : s.chapter? ⟨th, c⟩ = none) :
    defineChapter th c s = accept
      [BitVec.ofNat 8 c, 0#8, 0xC0#8, 0x5D#8, 0#8, 0#8, 0x00#8, 0x77#8, 0x01#8, 0#8, 0xC0#8, 0xD4#8, 0x01#8, 0#8]
      (s.setChapter ⟨th, c⟩ newChapter) := by
  refine (withOpenTitle_opened h hst).trans ((if_neg (Nat.not_lt.2 hc)).trans ?_)
  rw [hk]
  rfl

theorem setChapterPads_range {head tail : Nat} (h : s.title? th = some t) (hst : t.state = .opened) (hc : c ≤ 127)
    (hk : s.chapter? ⟨th, c⟩ = some k)
    (hr : 240000 < head ∨ 240000 < tail ∨ 268435456 < timelineLength head k.segments tail) :
    setChapterPads th c head tail s = refuse .range s :=
  (withOpenChapter_some h hst hc hk).trans (if_pos hr)

theorem setChapterPads_taken {head tail : Nat} (h : s.title? th = some t) (hst : t.state = .opened) (hc : c ≤ 127)
    (hk : s.chapter? ⟨th, c⟩ = some k)
    (hr : ¬ (240000 < head ∨ 240000 < tail ∨ 268435456 < timelineLength head k.segments tail)) :
    setChapterPads th c head tail s = takeEdit ⟨th, c⟩ { k with headPad := head, tailPad := tail } s.takeMem s :=
  (withOpenChapter_some h hst hc hk).trans (if_neg hr)

/-! ### INSERT-SEGMENT, REPLACE-SEGMENT and REMOVE-SEGMENT -/

section
variable {pos : Nat} {g old : Segment}

theorem insertSegment_range (h : s.title? th = some t) (hst : t.state = .opened) (hc : c ≤ 127)
    (hk : s.chapter? ⟨th, c⟩ = some k) (hp : k.segments.length < pos) : insertSegment th c pos g s = refuse .range s :=
  (withOpenChapter_some h hst hc hk).trans (if_pos hp)

theorem insertSegment_full (h : s.title? th = some t) (hst : t.state = .opened) (hc : c ≤ 127)
    (hk : s.chapter? ⟨th, c⟩ = some k) (hp : pos ≤ k.segments.length) (hl : 32 ≤ k.segments.length) :
    insertSegment th c pos g s = refuse .full s :=
  (withOpenChapter_some h hst hc hk).trans ((if_neg (Nat.not_lt.2 hp)).trans (if_pos hl))

theorem insertIdx_eq_take_drop {α : Type} (l : List α) {i : Nat} (x : α) (h : i ≤ l.length) :
    l.insertIdx i x = l.take i ++ x :: l.drop i := by
  induction i generalizing l with
  | zero => rfl
  | succ i ih =>
    cases l with
    | nil => cases h
    | cons y l => simp [ih l (Nat.le_of_succ_le_succ h)]

/-- R25: a position in the list, which is not full, leaves the checks of the segment. -/
theorem insertSegment_checked (h : s.title? th = some t) (hst : t.state = .opened) (hc : c ≤ 127)
    (hk : s.chapter? ⟨th, c⟩ = some k) (hp : pos ≤ k.segments.length) (hl : k.segments.length < 32) :
    insertSegment th c pos g s = withSegment th g (k.segments.take pos ++ g :: k.segments.drop pos) k s
      (takeEdit ⟨th, c⟩ { k with segments := k.segments.take pos ++ g :: k.segments.drop pos }
        (s.takeMem.raise (s.takeMem.segmentGroups g)) s) := by
  rw [← insertIdx_eq_take_drop k.segments g hp]
  exact (withOpenChapter_some h hst hc hk).trans ((if_neg (Nat.not_lt.2 hp)).trans (if_neg (Nat.not_le.2 hl)))

theorem replaceSegment_range (h : s.title? th = some t) (hst : t.state = .opened) (hc : c ≤ 127)
    (hk : s.chapter? ⟨th, c⟩ = some k) (hp : k.segments.length ≤ pos) : replaceSegment th c pos g s = refuse .range s := by
  refine (withOpenChapter_some h hst hc hk).trans ?_
  rw [List.getElem?_eq_none hp]

/-- R26: a position in the list leaves the checks of the segment. -/
theorem replaceSegment_checked (h : s.title? th = some t) (hst : t.state = .opened) (hc : c ≤ 127)
    (hk : s.chapter? ⟨th, c⟩ = some k) (ho : k.segments[pos]? = some old) :
    replaceSegment th c pos g s = withSegment th g (k.segments.set pos g) k s
      (takeEdit ⟨th, c⟩ { k with segments := k.segments.set pos g }
        ((s.takeMem.raise (s.takeMem.segmentGroups g)).lower (s.takeMem.segmentGroups old)) s) := by
  refine (withOpenChapter_some h hst hc hk).trans ?_
  rw [ho]

theorem removeSegment_range (h : s.title? th = some t) (hst : t.state = .opened) (hc : c ≤ 127)
    (hk : s.chapter? ⟨th, c⟩ = some k) (hp : k.segments.length ≤ pos) : removeSegment th c pos s = refuse .range s := by
  refine (withOpenChapter_some h hst hc hk).trans ?_
  rw [List.getElem?_eq_none hp]

theorem removeSegment_last (h : s.title? th = some t) (hst : t.state = .opened) (hc : c ≤ 127)
    (hk : s.chapter? ⟨th, c⟩ = some k) (ho : k.segments[pos]? = some old) (hl : k.segments.length = 1)
    (hb : k.state.busy = true) : removeSegment th c pos s = refuse .badState s := by
  refine (withOpenChapter_some h hst hc hk).trans ?_
  rw [ho]
  exact if_pos ⟨hl, hb⟩

theorem removeSegment_taken (h : s.title? th = some t) (hst : t.state = .opened) (hc : c ≤ 127)
    (hk : s.chapter? ⟨th, c⟩ = some k) (ho : k.segments[pos]? = some old)
    (hb : ¬ (k.segments.length = 1 ∧ k.state.busy = true)) :
    removeSegment th c pos s =
      takeEdit ⟨th, c⟩ { k with segments := k.segments.take pos ++ k.segments.drop (pos + 1) }
        (s.takeMem.lower (s.takeMem.segmentGroups old)) s := by
  rw [← List.eraseIdx_eq_take_drop_succ]
  refine (withOpenChapter_some h hst hc hk).trans ?_
  rw [ho]
  exact if_neg hb

end

end

section
variable {th : Nat} {s : State} {g : Segment} {l : List Segment} {k : Chapter} {e : Answer × State} {x : Take}

theorem withSegment_noTake (hx : s.take? th g.take = none) : withSegment th g l k s e = refuse .badHandle s :=
  withTake_none hx

theorem withSegment_recording (hx : s.take? th g.take = some x) (hr : x.state = .recording) :
    withSegment th g l k s e = refuse .badState s :=
  (withTake_some hx).trans (if_pos hr)

theorem withSegment_range (hx : s.take? th g.take = some x) (hr : x.state ≠ .recording)
    (hf : ¬ (segmentFits x g ∧ timelineLength k.headPad l k.tailPad ≤ 268435456)) :
    withSegment th g l k s e = refuse .range s := by
  refine (withTake_some hx).trans ((if_neg hr).trans (if_pos ?_))
  rwa [← segmentInRange_iff hx, not_and_or, Bool.not_eq_true, Nat.not_le] at hf

theorem withSegment_taken (hx : s.take? th g.take = some x) (hr : x.state ≠ .recording) (hf : segmentFits x g)
    (hl : timelineLength k.headPad l k.tailPad ≤ 268435456) : withSegment th g l k s e = e := by
  refine (withTake_some hx).trans ((if_neg hr).trans (if_neg ?_))
  simp [(segmentInRange_iff hx).2 hf, Nat.not_lt.2 hl]

/-- R24: the command of a request whose owner checks a segment, for each outcome of the checks. -/
theorem exec_withSegment {i : Instr} {p : Port} {tag : Byte} {r : Request} {c : ChapterId} {k' : Chapter} {m : TakeMemory}
    (hi : i.request? = some (p, tag, r)) (h : s.listens p) (ha : s.allows p (requestClass r)) (hf : formatOk r = true)
    (hd : isDiscard r = false)
    (hh : handle p r (s.heard p (operandLength r)) = withSegment th g l k (s.heard p (operandLength r))
      (takeEdit c k' m (s.heard p (operandLength r)))) :
    let no := fun st => exec i s = .next (s.answered p tag (operandLength r) (s.marked p) { status := st })
    (s.take? th g.take = none → no .badHandle) ∧
    (∀ x, s.take? th g.take = some x →
      (x.state = .recording → no .badState) ∧
      (x.state ≠ .recording → ¬ (segmentFits x g ∧ timelineLength k.headPad l k.tailPad ≤ 268435456) → no .range) ∧
      (x.state ≠ .recording → segmentFits x g → timelineLength k.headPad l k.tailPad ≤ 268435456 →
        editTaken s p tag (operandLength r) c k' m (exec i s))) := by
  intro no
  have hno : ∀ st, handle p r (s.heard p (operandLength r)) = refuse st (s.heard p (operandLength r)) → no st :=
    fun st hr => exec_reads hi h ha hf hd hr
  refine ⟨fun hx => hno _ (hh.trans (withSegment_noTake hx)),
    fun x hx => ⟨fun hr => ?_, fun hr hfit => ?_, fun hr hfit hl => ?_⟩⟩
  · exact hno _ (hh.trans (withSegment_recording hx hr))
  · exact hno _ (hh.trans (withSegment_range hx hr hfit))
  · exact exec_edits hi h ha hf hd (hh.trans (withSegment_taken hx hr hfit hl))

end

end Sys2Proof.Machine

namespace Sys2Proof.Settled

open Sys2Proof.Machine

/-- Settles O18: the index and its record decide DEFINE-CHAPTER, the three lengths SET-CHAPTER-PADS. -/
theorem defineChapterAndPads : Obligations.DefineChapterAndPads := by
  unfold Obligations.DefineChapterAndPads
  refine ⟨fun p tag th c s t h ha ht hst => ⟨fun hc => ?_, fun k hc hk => ?_, fun hc hk => ?_⟩,
    fun p tag th c head tail s t k h ha ht hst hc hk => ⟨fun hr => ?_, fun hhead htail hlen => ?_⟩⟩
  · exact exec_reads (r := .defineChapter th c) rfl h ha rfl rfl (defineChapter_range ht hst hc)
  · exact exec_reads (r := .defineChapter th c) rfl h ha rfl rfl (defineChapter_defined ht hst hc hk)
  · exact exec_answered (r := .defineChapter th c) (s.setChapter ⟨th, c⟩ newChapter) rfl h ha rfl rfl rfl
      (defineChapter_taken ht hst hc hk)
  · exact exec_reads (r := .setChapterPads th c head tail) rfl h ha rfl rfl (setChapterPads_range ht hst hc hk hr)
  · exact exec_edits (r := .setChapterPads th c head tail) rfl h ha rfl rfl
      (setChapterPads_taken ht hst hc hk (by omega))

/-- Settles O20: the position, and for INSERT-SEGMENT the length of the list, come before the checks of R24. -/
theorem segmentsPlaced : Obligations.SegmentsPlaced := by
  unfold Obligations.SegmentsPlaced
  refine ⟨fun p tag th c pos g s t k h ha ht hst hc hk => ⟨fun hp => ?_, fun hp hl => ?_, fun hp hl => ?_⟩,
    fun p tag th c pos g s t k h ha ht hst hc hk => ⟨fun hp => ?_, fun old ho => ?_⟩⟩
  · exact exec_reads (r := .insertSegment th c pos g) rfl h ha rfl rfl (insertSegment_range ht hst hc hk hp)
  · exact exec_reads (r := .insertSegment th c pos g) rfl h ha rfl rfl (insertSegment_full ht hst hc hk hp hl)
  · exact exec_withSegment (r := .insertSegment th c pos g) rfl h ha rfl rfl (insertSegment_checked ht hst hc hk hp hl)
  · exact exec_reads (r := .replaceSegment th c pos g) rfl h ha rfl rfl (replaceSegment_range ht hst hc hk hp)
  · exact exec_withSegment (r := .replaceSegment th c pos g) rfl h ha rfl rfl (replaceSegment_checked ht hst hc hk ho)

/-- Settles O21: the position, and for the last segment whether the chapter waits for a lane or is in one. -/
theorem removeSegment : Obligations.RemoveSegment := by
  unfold Obligations.RemoveSegment
  intro p tag th c pos s t k h ha ht hst hc hk
  refine ⟨fun hp => ?_, fun hp hl hb => ?_, fun old ho hb => ?_⟩
  · exact exec_reads (r := .removeSegment th c pos) rfl h ha rfl rfl (removeSegment_range ht hst hc hk hp)
  · have hbusy : k.state.busy = true := by simpa [ChapterState.busy_eq] using hb
    exact exec_reads (r := .removeSegment th c pos) rfl h ha rfl rfl
      (removeSegment_last ht hst hc hk (List.getElem?_eq_getElem hp) hl hbusy)
  · have hfree : ¬ (k.segments.length = 1 ∧ k.state.busy = true) := by
      rintro ⟨hl, hbusy⟩
      rcases hb with hne | hs | hs | hs
      · exact hne hl
      all_goals
        rw [hs] at hbusy
        cases hbusy
    exact exec_edits (r := .removeSegment th c pos) rfl h ha rfl rfl (removeSegment_taken ht hst hc hk ho hfree)

end Sys2Proof.Settled
end

section
/-! SUPPORT. What the requests that name a chapter, a take or a hold come to once their title is resolved: the check of that name,
and then the rest. -/

namespace Sys2Proof.Machine

section
variable {p : Port} {r : Request} {s : State} {t : Title}

/-- R20: the owner of a request that names a chapter goes on with its record. -/
theorem handle_chapterNamed {c : Nat} (hc : chapterNamed r = some c) (h : s.title? (titleByte r) = some t)
    (hl : lockedIn t.state r = false) : ∃ f, handle p r s = withChapter (titleByte r) c s f := by
  cases r with
  | deleteChapter | setChapterPads | insertSegment | replaceSegment | removeSegment =>
    cases hc
    exact ⟨_, withOpenTitle_opened h (by simpa [lockedIn] using hl)⟩
  | queueRender =>
    cases hc
    exact ⟨_, (withTitle_some h).trans (if_neg (of_decide_eq_false hl))⟩
  | cancelRender | openRead =>
    cases hc
    exact ⟨_, withTitle_some h⟩
  | _ => cases hc

/-- R50: the owner of a request that names a take first of all goes on with its record. -/
theorem handle_takeNamed {take : Nat} (hk : takeNamed r = some take) (h : s.title? (titleByte r) = some t) :
    ∃ f, handle p r s = withTake (titleByte r) take s f := by
  cases r with
  | writeBlock | closeTake | takeInfo | discardFirst =>
    cases hk
    exact ⟨_, withTitle_some h⟩
  | _ => cases hk

/-- R158: the owner of a request that names a hold goes on with it. -/
theorem handle_holdNamed {slot gen : Nat} (hn : handleNamed r = some (slot, gen)) (h : s.title? (titleByte r) = some t) :
    ∃ f, handle p r s = withHold p (titleByte r) slot gen s f := by
  cases r with
  | readRange | closeRead =>
    cases hn
    exact ⟨_, withTitle_some h⟩
  | _ => cases hn

theorem chapterNamed_spec {c : Nat} (h : chapterNamed r = some c) : formatOk r = true ∧ isDiscard r = false := by
  cases r with
  | deleteChapter | setChapterPads | insertSegment | replaceSegment | removeSegment | queueRender | cancelRender | openRead =>
    exact ⟨rfl, rfl⟩
  | _ => cases h

theorem handleNamed_spec {x : Nat × Nat} (h : handleNamed r = some x) :
    requestClass r = .read ∧ formatOk r = true ∧ isDiscard r = false := by
  cases r with
  | readRange | closeRead => exact ⟨rfl, rfl, rfl⟩
  | _ => cases h

end

section
variable {p : Port} {th slot gen : Nat} {s : State} {f : Hold → Answer × State} {x : Hold}

theorem withHold_noSlot (h : slot = 0 ∨ 16 < slot) : withHold p th slot gen s f = refuse .badHandle s :=
  if_pos (by omega)

theorem withHold_free (h1 : 1 ≤ slot) (h16 : slot ≤ 16) (hx : Tab.look s.holdTable.holds slot = none) :
    withHold p th slot gen s f = refuse .tooLate s := by
  refine (if_neg (by omega)).trans ?_
  rw [hx]

theorem withHold_reused (h1 : 1 ≤ slot) (h16 : slot ≤ 16) (hx : Tab.look s.holdTable.holds slot = some x)
    (hg : s.holdTable.gens.getD (slot - 1) 0 ≠ gen) : withHold p th slot gen s f = refuse .tooLate s := by
  refine (if_neg (by omega)).trans ?_
  rw [hx]
  exact if_pos hg

theorem withHold_foreign (h1 : 1 ≤ slot) (h16 : slot ≤ 16) (hx : Tab.look s.holdTable.holds slot = some x)
    (hg : s.holdTable.gens.getD (slot - 1) 0 = gen) (ho : x.owner ≠ p ∨ x.chapter.title ≠ th) :
    withHold p th slot gen s f = refuse .badHandle s := by
  refine (if_neg (by omega)).trans ?_
  rw [hx]
  exact (if_neg (not_not.2 hg)).trans (if_pos ho)

end

end Sys2Proof.Machine

namespace Sys2Proof.Settled

open Sys2Proof.Machine

/-- Settles O19: after its title, each owner looks up what the request names, and refuses by what it finds. -/
theorem namesResolved : Obligations.NamesResolved := by
  unfold Obligations.NamesResolved
  refine ⟨fun i p tag r s t c hi h ha hc ht hl => ?_, fun i p tag r s t take hi h ha hf hk ht hnone => ?_,
    fun i p tag r s t slot gen hi h ha hn ht => ?_⟩
  · obtain ⟨hf, hd⟩ := chapterNamed_spec hc
    obtain ⟨f, hh⟩ := handle_chapterNamed (p := p) (s := s.heard p (operandLength r)) hc ht hl
    exact ⟨fun hr => exec_reads hi h ha hf hd (hh.trans (withChapter_range hr)),
      fun hr hnone => exec_reads hi h ha hf hd (hh.trans (withChapter_none hr hnone))⟩
  · rw [exec_request hi]
    refine request_refused tag .badHandle (by decide) h ha hf fun u hu _ hm _ _ => ?_
    obtain ⟨f, hh⟩ := handle_takeNamed (p := p) (s := u) hk (t := t) (by simpa only [State.title?, hu] using ht)
    exact hh.trans (withTake_none (by simpa only [State.take?, hm] using hnone))
  · obtain ⟨hcl, hf, hd⟩ := handleNamed_spec hn
    obtain ⟨f, hh⟩ := handle_holdNamed (p := p) (s := s.heard p (operandLength r)) hn ht
    intro no
    have hno : ∀ st, withHold p (titleByte r) slot gen (s.heard p (operandLength r)) f =
        refuse st (s.heard p (operandLength r)) → no st :=
      fun st hr => exec_reads hi h (hcl ▸ ha) hf hd (hh.trans hr)
    exact ⟨fun hs => hno _ (withHold_noSlot hs), fun h1 h16 hx => hno _ (withHold_free h1 h16 hx),
      fun x h1 h16 hx => ⟨fun hg => hno _ (withHold_reused h1 h16 hx hg), fun hg ho => hno _ (withHold_foreign h1 h16 hx hg ho)⟩⟩

end Sys2Proof.Settled
end

section
/-! SUPPORT. What DELETE-CHAPTER leaves: the chapter out of its place, and then out of the part. -/

namespace Sys2Proof.Machine

/-! ### A chapter taken out of its place -/

/-- R30: the render of the chapter's lane is dropped. -/
theorem State.endRender_eq {s : State} {c : ChapterId} {i : Fin 4} {r : Render} (way : EndWay) (hi : s.laneOf c = some i)
    (hr : (s.lanes.get i).render = some r) :
    s.endRender c way = s.dropRender i r ⟨c, way, r.stage.laneState, none, none, none, none⟩ := by
  unfold State.endRender State.endLane
  rw [hi]
  dsimp only
  rw [hr, ← laneOf_spec hi hr]
  rfl

section
variable {s : State} {c : ChapterId} {k : Chapter}

theorem State.unqueue_idle (hb : k.state.busy = false) (way : EndWay) : s.unqueue c k way = s := if_neg (by simp [hb])

theorem State.unqueue_queued (hq : k.state = .queued) (way : EndWay) : s.unqueue c k way = { s with
    queue := ⟨s.queue.rush.filter (fun x => decide (x ≠ c)), s.queue.normal.filter (fun x => decide (x ≠ c)),
      s.queue.count - 1⟩ } := by
  have hkeep : ∀ x : ChapterId, (!decide (x = c)) = decide (x ≠ c) := fun x => decide_not.symm
  simp only [State.unqueue, hq, ChapterState.busy, RenderQueue.remove, RenderQueue.fewer, hkeep, if_true]

theorem State.unqueue_lane (hl : k.state.inLane = true) {i : Fin 4} {r : Render} (way : EndWay) (hi : s.laneOf c = some i)
    (hr : (s.lanes.get i).render = some r) : s.unqueue c k way =
      { s.dropRender i r ⟨c, way, r.stage.laneState, none, none, none, none⟩ with
        queue := { s.queue with count := s.queue.count - 1 } } := by
  have hb : k.state.busy = true := by
    rw [ChapterState.busy_eq, decide_eq_true_eq]
    exact .inr ((ChapterState.inLane_iff _).1 hl)
  have hq : k.state ≠ .queued := by
    intro hq
    rw [hq] at hl
    cases hl
  unfold State.unqueue
  rw [if_pos hb, if_neg hq, State.endRender_eq way hi hr]
  rfl

end

/-! ### DELETE-CHAPTER -/

/-- R37 steps 2 to 5: the part `u`, where chapter `c` has left its FIFO or its lane, without the chapter; `s` is the part before
step 1. -/
def State.erased (s : State) (c : ChapterId) (k : Chapter) (u : State) : State := { u with
  takeMem := s.takeMem.lower (k.segments.flatMap s.takeMem.segmentGroups)
  rendMem := { u.rendMem with pool := u.rendMem.pool ++ s.rendMem.setPages c, sets := Tab.drop s.rendMem.sets c.key }
  ports := s.ports.notify (fun l => l.removeNaming (fun x => decide (x = c)))
  chapters := Tab.drop s.chapters c.key }

/-- R36, R37: the results of a taken DELETE-CHAPTER that returns `n` pages. -/
def deleteResults (k : Chapter) (n : Nat) : List Byte := le 1 k.state.code ++ (le 1 k.segments.length ++ le 4 n)

section
variable {th c : Nat} {s : State} {t : Title} {k : Chapter}

theorem deleteChapter_locked (h : s.title? th = some t) (hst : t.state = .opened) (hc : c ≤ 127)
    (hk : s.chapter? ⟨th, c⟩ = some k) (hh : s.held ⟨th, c⟩ = true) : deleteChapter th c s = refuse .locked s :=
  (withOpenChapter_some h hst hc hk).trans (if_pos hh)

theorem deleteChapter_taken (h : s.title? th = some t) (hst : t.state = .opened) (hc : c ≤ 127)
    (hk : s.chapter? ⟨th, c⟩ = some k) (hh : s.held ⟨th, c⟩ = false) :
    deleteChapter th c s = accept
      (deleteResults k (((s.unqueue ⟨th, c⟩ k .deleted).eraseChapter ⟨th, c⟩ k).rendMem.pool.length - s.rendMem.pool.length))
      ((s.unqueue ⟨th, c⟩ k .deleted).eraseChapter ⟨th, c⟩ k) :=
  (withOpenChapter_some h hst hc hk).trans (if_neg (by simp [hh]))

/-- R37: `u` is the part after step 1, in which the lists were changed by `f`, which only adds entries that name the chapter, and
`pages` joined the pool. -/
theorem exec_deleteChapter {p : Port} {tag : Byte} {u : State} {f : NoticeLists → NoticeLists} {pages : List Nat}
    (h : s.listens p) (ha : s.allows p .plan) (ht : s.title? th = some t) (hst : t.state = .opened) (hc : c ≤ 127)
    (hk : s.chapter? ⟨th, c⟩ = some k) (hh : s.held ⟨th, c⟩ = false)
    (hu : (s.heard p 1).unqueue ⟨th, c⟩ k .deleted = { u with ports := (s.heard p 1).ports.notify f })
    (hf : ∀ l, (f l).removeNaming (fun x => decide (x = ⟨th, c⟩)) = l.removeNaming (fun x => decide (x = ⟨th, c⟩)))
    (hm : u.takeMem = s.takeMem) (hs : u.rendMem.sets = s.rendMem.sets) (hch : u.chapters = s.chapters)
    (hp : u.rendMem.pool = s.rendMem.pool ++ pages) :
    exec (.deleteChapter p tag th c) s = .next ((s.erased ⟨th, c⟩ k u).answered p tag 1 (s.marked p)
      ⟨.ok, {}, deleteResults k (pages.length + (s.rendMem.setPages ⟨th, c⟩).length)⟩) := by
  refine request_answered_notify (.deleteChapter th c) tag (s.erased ⟨th, c⟩ k u)
    (fun l => l.removeNaming (fun x => decide (x = ⟨th, c⟩))) _ h ha rfl rfl rfl ?_
  refine (deleteChapter_taken (s := s.heard p 1) ht hst hc hk hh).trans ?_
  have hpages : u.rendMem.setPages ⟨th, c⟩ = s.rendMem.setPages ⟨th, c⟩ := by
    unfold RenditionMemory.setPages
    rw [hs]
  have hlists : ((s.heard p 1).ports.notify f).notify (fun l => l.removeNaming (fun x => decide (x = ⟨th, c⟩))) =
      (s.heard p 1).ports.notify (fun l => l.removeNaming (fun x => decide (x = ⟨th, c⟩))) := by
    refine Ports.ext fun q => ?_
    simp only [Ports.get_notify, hf]
  have herase : ((s.heard p 1).unqueue ⟨th, c⟩ k .deleted).eraseChapter ⟨th, c⟩ k = { s.erased ⟨th, c⟩ k u with
      ports := (s.heard p 1).ports.notify (fun l => l.removeNaming (fun x => decide (x = ⟨th, c⟩))) } := by
    rw [hu]
    simp only [State.eraseChapter, State.erased, RenditionMemory.free, hlists, hpages, hm, hs, hch]
  rw [herase]
  simp only [State.erased, hp, State.heard_rendMem, List.length_append, Nat.add_assoc, Nat.add_sub_cancel_left]
  rfl

end

end Sys2Proof.Machine

namespace Sys2Proof.Settled

open Sys2Proof.Machine

/-- Settles O23: `exec_deleteChapter`, with the part as `State.unqueue` leaves it for each state of the chapter. -/
theorem deleteChapter : Obligations.DeleteChapter := by
  unfold Obligations.DeleteChapter
  intro p tag th c s t k h ha ht hst hc hk ch no erased reply
  refine ⟨fun hh => ?_, fun hh => ?_⟩
  · exact exec_reads (r := .deleteChapter th c) rfl h ha rfl rfl (deleteChapter_locked ht hst hc hk (held_iff.2 hh))
  have hfree : s.held ⟨th, c⟩ = false := by
    rw [← Bool.not_eq_true, held_iff]
    rintro ⟨e, he, hch⟩
    exact hh e he hch
  refine ⟨fun hb => ?_, fun hq => ?_, fun i r hl hi hr => ?_⟩
  · have hbusy : k.state.busy = false := by rcases hb with hs | hs | hs <;> rw [hs] <;> rfl
    have hout := exec_deleteChapter (tag := tag) (u := s) (f := id) (pages := []) h ha ht hst hc hk hfree
      (State.unqueue_idle hbusy _) (fun _ => rfl) rfl rfl rfl (List.append_nil _).symm
    rwa [List.length_nil, Nat.zero_add] at hout
  · have hout := exec_deleteChapter (tag := tag) (f := id) (pages := [])
      (u := { s with queue := ⟨s.queue.rush.filter (fun x => decide (x ≠ ch)), s.queue.normal.filter (fun x => decide (x ≠ ch)),
        s.queue.count - 1⟩ }) h ha ht hst hc hk hfree
      (State.unqueue_queued hq _) (fun _ => rfl) rfl rfl rfl (List.append_nil _).symm
    rwa [List.length_nil, Nat.zero_add] at hout
  · have hunqueue := State.unqueue_lane (s := s.heard p 1) hl .deleted hi hr
    rw [State.dropRender, laneOf_spec hi hr] at hunqueue
    exact exec_deleteChapter (tag := tag) (f := NoticeLists.postCrossings ch (endedRestores r.stage.encoders))
      (u := { s.dropRender i r ⟨ch, .deleted, r.stage.laneState, none, none, none, none⟩ with
        queue := { s.queue with count := s.queue.count - 1 } }) h ha ht hst hc hk hfree
      hunqueue (removeNaming_post ch _) rfl rfl rfl rfl

end Sys2Proof.Settled
end

section
/-! SUPPORT. R42: where the groups of take memory are. The places as one list, the groups with their places, and what each kind of
move of groups does to both. -/

namespace Sys2Proof.Machine

/-! ### A table as a record and the rest -/

/-- A record and the rest of its table. -/
theorem Tab.perm_cons_drop {α : Type} {t : Tab α} {k : Nat} {v : α} (hw : Tab.wf t = true) (h : (k, v) ∈ t) :
    t.Perm ((k, v) :: Tab.drop t k) := by
  induction t with
  | nil => cases h
  | cons e t ih =>
    obtain ⟨j, w⟩ := e
    obtain ⟨ht, ha⟩ := Tab.wf_cons hw
    unfold Tab.drop at ih ⊢
    rw [List.filter_cons]
    rcases List.mem_cons.1 h with he | he
    · cases he
      rw [if_neg (by simp), List.filter_eq_self.2 fun e he => decide_eq_true (ha e he).ne']
    · rw [if_pos (by simpa using (ha _ he).ne)]
      exact ((ih ht he).cons _).trans (.swap ..)

/-- A stored record and the rest of its table. -/
theorem Tab.put_perm {α : Type} {t : Tab α} (k : Nat) (v : α) (hw : Tab.wf t = true) :
    (Tab.put t k v).Perm ((k, v) :: Tab.drop t k) := by
  rw [← drop_put t k v]
  exact Tab.perm_cons_drop (Tab.wf_put _ _ hw) (Tab.mem_of_look (Tab.look_put_same ..))

theorem Tab.mem_put_iff {α : Type} {t : Tab α} {k : Nat} {v : α} {e : Nat × α} (hw : Tab.wf t = true) :
    e ∈ Tab.put t k v ↔ e = (k, v) ∨ e ∈ t ∧ e.1 ≠ k := by
  rw [(Tab.put_perm k v hw).mem_iff, List.mem_cons, Tab.drop, List.mem_filter, decide_eq_true_eq]

theorem Tab.drop_of_look_none {α : Type} {t : Tab α} {k : Nat} (hw : Tab.wf t = true) (h : Tab.look t k = none) :
    Tab.drop t k = t := by
  refine List.filter_eq_self.2 fun e he => decide_eq_true fun hk => ?_
  rw [← hk, Tab.look_of_mem hw (show (e.1, e.2) ∈ t from he)] at h
  cases h

/-! ### The groups that takes own -/

/-- Every owned group of a take table, in list order. -/
def ownedGroups (T : Tab Take) : List Nat := T.flatMap (fun e => e.2.owned)

/-- Group `g` is entry `i` of the list of take `id`. -/
def Owns (T : Tab Take) (id i g : Nat) : Prop := ∃ t, (id, t) ∈ T ∧ t.groups[i]? = some (some g)

theorem Take.mem_owned {t : Take} {g : Nat} : g ∈ t.owned ↔ ∃ i : Nat, t.groups[i]? = some (some g) := by
  rw [← List.mem_iff_getElem?]
  simp [Take.owned]

theorem mem_ownedGroups {T : Tab Take} {g : Nat} : g ∈ ownedGroups T ↔ ∃ id i, Owns T id i g := by
  simp only [ownedGroups, List.mem_flatMap, Take.mem_owned, Owns]
  exact ⟨fun ⟨e, he, i, hi⟩ => ⟨e.1, i, e.2, he, hi⟩, fun ⟨id, i, t, ht, hi⟩ => ⟨(id, t), ht, i, hi⟩⟩

theorem owns_iff_look {T : Tab Take} (hw : Tab.wf T = true) {id i g : Nat} :
    Owns T id i g ↔ ∃ t, Tab.look T id = some t ∧ t.groups[i]? = some (some g) :=
  exists_congr fun _ => and_congr_left' ⟨Tab.look_of_mem hw, Tab.mem_of_look⟩

/-- The groups of one take and those of the rest of the table. -/
theorem ownedGroups_perm {T : Tab Take} (hw : Tab.wf T = true) {id : Nat} {t : Take} (h : Tab.look T id = some t) :
    (ownedGroups T).Perm (t.owned ++ ownedGroups (Tab.drop T id)) :=
  (Tab.perm_cons_drop hw (Tab.mem_of_look h)).flatMap_right _

theorem ownedGroups_put {T : Tab Take} (hw : Tab.wf T = true) (id : Nat) (t : Take) :
    (ownedGroups (Tab.put T id t)).Perm (t.owned ++ ownedGroups (Tab.drop T id)) :=
  (Tab.put_perm id t hw).flatMap_right _

/-! ### The places of R42 -/

/-- R41, R42: a place of a group. -/
inductive Place where
  | clean | dirty | erasing | bad
  | owned (take index : Nat)
  deriving DecidableEq

/-- The state of a group in a place (R41). -/
def Place.state : Place → GroupState
  | .clean => .clean
  | .dirty => .dirty
  | .erasing => .erasing
  | .bad => .bad
  | .owned _ _ => .owned

def Place.owner : Place → Option Nat
  | .owned take _ => some take
  | _ => none

def Place.index : Place → Option Nat
  | .owned _ i => some i
  | _ => none

namespace TakeMemory

/-- `State.GroupLaw` (R42) is about take memory alone. -/
def Grouped (m : TakeMemory) : Prop := Tab.wf m.takes = true ∧ m.places.Perm (List.range 32768)

/-- Where the groups are that no take owns. -/
def free (m : TakeMemory) : List Nat := m.clean ++ m.dirty ++ m.engine.toList ++ m.bad

theorem places_eq (m : TakeMemory) : m.places = m.free ++ ownedGroups m.takes := rfl

/-- Every group with its place, in the order of `places`. -/
def placed (m : TakeMemory) : List (Nat × Place) :=
  m.clean.map (·, .clean) ++ m.dirty.map (·, .dirty) ++ m.engine.toList.map (·, .erasing) ++ m.bad.map (·, .bad) ++
    m.takes.flatMap (fun e => e.2.groups.zipIdx.filterMap (fun x => x.1.map (·, .owned e.1 x.2)))

theorem map_placed (m : TakeMemory) : m.placed.map Prod.fst = m.places := by
  have htake : ∀ e : Nat × Take,
      (e.2.groups.zipIdx.filterMap (fun x => x.1.map (·, Place.owned e.1 x.2))).map Prod.fst = e.2.owned := by
    intro e
    have hfst : ∀ x : Option Nat × Nat, (x.1.map (·, Place.owned e.1 x.2)).map Prod.fst = id x.1 := by
      rintro ⟨_ | _, _⟩ <;> rfl
    rw [List.map_filterMap, funext hfst, Take.owned]
    conv_rhs => rw [← List.zipIdx_map_fst 0 e.2.groups, List.filterMap_map]
    rfl
  simp only [placed, places, List.map_append, List.map_map, List.map_flatMap, htake]
  simp [Function.comp_def]

theorem mem_placed {m : TakeMemory} {x : Nat} {pl : Place} : (x, pl) ∈ m.placed ↔
    match pl with
    | .clean => x ∈ m.clean
    | .dirty => x ∈ m.dirty
    | .erasing => m.engine = some x
    | .bad => x ∈ m.bad
    | .owned id i => Owns m.takes id i x := by
  cases pl <;> simp [placed, Owns, List.mem_zipIdx_iff_getElem?]

/-- R42: a group is in one place. -/
theorem Grouped.placed_inj {m : TakeMemory} (h : m.Grouped) {x : Nat} {pl q : Place} (hp : (x, pl) ∈ m.placed)
    (hq : (x, q) ∈ m.placed) : pl = q := by
  have hn : (m.placed.map Prod.fst).Nodup := m.map_placed ▸ h.2.nodup_iff.2 List.nodup_range
  exact congrArg Prod.snd (List.inj_on_of_nodup_map hn hp hq rfl)

theorem Grouped.exists_place {m : TakeMemory} (h : m.Grouped) {x : Nat} (hx : x < 32768) : ∃ pl, (x, pl) ∈ m.placed := by
  have hm : x ∈ m.placed.map Prod.fst := m.map_placed ▸ h.2.mem_iff.2 (List.mem_range.2 hx)
  obtain ⟨⟨_, pl⟩, hpl, rfl⟩ := List.mem_map.1 hm
  exact ⟨pl, hpl⟩

/-! ### Groups that move -/

/-- Groups that takes own are there once, and none is in the bad set. -/
theorem Grouped.owned_spec {m : TakeMemory} (h : m.Grouped) {gs R : List Nat} (hp : (ownedGroups m.takes).Perm (gs ++ R)) :
    gs.Nodup ∧ ∀ g ∈ gs, g ∉ m.bad := by
  have hn : m.places.Nodup := h.2.nodup_iff.2 List.nodup_range
  obtain ⟨-, howned, hdisj⟩ := List.nodup_append'.1 hn
  have hgs := (List.nodup_append'.1 (hp.nodup_iff.1 howned)).1
  exact ⟨hgs, fun g hg hb => hdisj (List.mem_append_right _ hb) (hp.mem_iff.2 (List.mem_append_left _ hg))⟩

/-- R45: released groups join the free ones. -/
theorem releaseAll_free (m : TakeMemory) {gs : List Nat} (hn : gs.Nodup) (hb : ∀ g ∈ gs, g ∉ m.bad) :
    (m.releaseAll gs).free.Perm (m.free ++ gs) := by
  unfold free
  rw [releaseAll_clean, releaseAll_engine, releaseAll_dirty m hn]
  refine ((releaseAll_bad m hn hb).append_left _).trans (List.perm_iff_count.2 fun x => ?_)
  have hsplit := (List.filter_append_perm (fun g => (m.group g).faulted) gs).count_eq x
  simp only [List.count_append] at hsplit ⊢
  omega

/-- R43 to R46, R48, R65: what anything that the part does can make of the groups. -/
inductive Move (m : TakeMemory) : TakeMemory → Prop
  /-- Counts move, and groups that takes own get the faulted mark. -/
  | records (G : List Group) (hl : G.length = m.groups.length)
      (hr : ∀ x, ({ m with groups := G }.group x).state = (m.group x).state ∧
        ({ m with groups := G }.group x).owner = (m.group x).owner ∧
        ({ m with groups := G }.group x).index = (m.group x).index ∧
        (({ m with groups := G }.group x).faulted = (m.group x).faulted ∨ x ∈ ownedGroups m.takes)) :
      Move m { m with groups := G }
  /-- The groups of `gs` leave their takes, and the takes change in nothing else that concerns groups. -/
  | leave (gs : List Nat) (T : Tab Take) (mem : Memory) (hw : Tab.wf T = true)
      (hp : (ownedGroups m.takes).Perm (gs ++ ownedGroups T))
      (hk : ∀ id i x, x ∉ gs → Owns m.takes id i x → Owns T id i x) :
      Move m { m.releaseAll gs with takes := T, mem := mem }
  /-- The head of the clean pool becomes an entry of a take's list. -/
  | draw (g id i : Nat) (rest : List Nat) (T : Tab Take) (hc : m.clean = g :: rest) (hw : Tab.wf T = true)
      (hp : (ownedGroups T).Perm (g :: ownedGroups m.takes)) (hg : Owns T id i g)
      (hk : ∀ id i x, Owns m.takes id i x → Owns T id i x) :
      Move m { m.drawTo g id i with takes := T }
  | eraseStart : Move m m.eraseStart
  | eraseDone : Move m m.eraseDone
  | eraseFailed : Move m m.eraseFailed
  | reset : Move m TakeMemory.atReset

/-- The erase of a group starts (R44), in the terms of `Move`. -/
theorem eraseStart_cases (m : TakeMemory) : m.eraseStart = m ∨ ∃ g rest, m.engine = none ∧ m.dirty = g :: rest ∧
    m.eraseStart = { m.setGroup g { m.group g with state := .erasing } with dirty := rest, engine := some g } := by
  unfold TakeMemory.eraseStart
  split
  · next g rest he hd => exact .inr ⟨g, rest, he, hd, rfl⟩
  · exact .inl rfl

theorem Grouped.not_bad_of_engine {m : TakeMemory} (h : m.Grouped) {g : Nat} (he : m.engine = some g) : g ∉ m.bad := by
  intro hb
  cases h.placed_inj (mem_placed.2 he : (g, Place.erasing) ∈ m.placed) (mem_placed.2 hb : (g, Place.bad) ∈ m.placed)

theorem grouped_atReset : TakeMemory.atReset.Grouped := by
  refine ⟨rfl, .of_eq ?_⟩
  change [] ++ List.range' 0 32768 ++ [] ++ [] ++ [] = _
  rw [List.nil_append, List.append_nil, List.append_nil, List.append_nil, List.range_eq_range']

/-- R42: every move keeps each group in one place. -/
theorem Grouped.move {m m' : TakeMemory} (h : m.Grouped) (hm : m.Move m') : m'.Grouped := by
  obtain ⟨hw, hp⟩ := h
  cases hm with
  | records G => exact ⟨hw, hp⟩
  | leave gs T mem hwT hT =>
    obtain ⟨hn, hb⟩ := Grouped.owned_spec ⟨hw, hp⟩ hT
    have hfree := (m.releaseAll_free hn hb).append_right (ownedGroups T)
    rw [List.append_assoc] at hfree
    exact ⟨hwT, (hfree.trans (hT.symm.append_left _)).trans hp⟩
  | draw g id i rest T hc hwT hT =>
    refine ⟨hwT, List.Perm.trans (List.perm_iff_count.2 fun x => ?_) hp⟩
    have hx := hT.count_eq x
    simp only [places_eq, free, drawTo, setGroup, hc, List.drop_one, List.tail_cons, List.count_append, List.count_cons] at hx ⊢
    omega
  | eraseStart =>
    rcases m.eraseStart_cases with he | ⟨g, rest, hnone, hd, he⟩
    · rw [he]
      exact ⟨hw, hp⟩
    · rw [he]
      refine ⟨hw, List.Perm.trans (List.perm_iff_count.2 fun x => ?_) hp⟩
      simp only [places_eq, free, setGroup, hnone, hd, Option.toList, List.count_append, List.count_cons, List.count_nil]
      omega
  | eraseDone =>
    unfold TakeMemory.eraseDone
    split
    · exact ⟨hw, hp⟩
    next g he =>
    refine ⟨hw, List.Perm.trans (List.perm_iff_count.2 fun x => ?_) hp⟩
    simp only [places_eq, free, setGroup, he, Option.toList, List.count_append, List.count_cons, List.count_nil]
    omega
  | eraseFailed =>
    unfold TakeMemory.eraseFailed
    split
    · exact ⟨hw, hp⟩
    next g he =>
    have hbad := (insertBad_perm (Grouped.not_bad_of_engine ⟨hw, hp⟩ he))
    refine ⟨hw, List.Perm.trans (List.perm_iff_count.2 fun x => ?_) hp⟩
    simp only [places_eq, free, setGroup, he, Option.toList, List.count_append, List.count_cons, List.count_nil, hbad.count_eq]
    omega
  | reset => exact grouped_atReset

/-! ### The group map -/

end TakeMemory

/-- R41: the record is that of a group in the place. -/
def Group.At (r : Group) (pl : Place) : Prop :=
  r.state = pl.state ∧ r.owner = pl.owner ∧ r.index = pl.index ∧ (pl.owner = none → r.faulted = false)

/-- R41: the law on one record, in the words of `State.MapLaw`. -/
theorem Group.at_iff (r : Group) (pl : Place) : r.At pl ↔
    (r.state = .clean ↔ .clean = pl) ∧ (r.state = .dirty ↔ .dirty = pl) ∧ (r.state = .erasing ↔ .erasing = pl) ∧
    (r.state = .bad ↔ .bad = pl) ∧ (∀ id i, (r.owner = some id ∧ r.index = some i) ↔ .owned id i = pl) ∧
    (r.state = .owned ↔ (r.owner ≠ none ∧ r.index ≠ none)) ∧
    (r.state ≠ .owned → r.owner = none ∧ r.index = none ∧ r.faulted = false) := by
  constructor
  · rintro ⟨hst, how, hix, hf⟩
    rw [hst, how, hix]
    cases pl with
    | owned id i => simp [Place.state, Place.owner, Place.index, eq_comm (a := id), eq_comm (a := i)]
    | _ => simp [Place.state, Place.owner, Place.index, hf rfl]
  · rintro ⟨hclean, hdirty, herasing, hbad, howner, howned, hnot⟩
    have hst : r.state = pl.state := by
      cases pl with
      | clean => exact hclean.2 rfl
      | dirty => exact hdirty.2 rfl
      | erasing => exact herasing.2 rfl
      | bad => exact hbad.2 rfl
      | owned id i =>
        obtain ⟨how, hix⟩ := (howner id i).2 rfl
        exact howned.2 (by simp [how, hix])
    cases pl with
    | owned id i =>
      obtain ⟨how, hix⟩ := (howner id i).2 rfl
      exact ⟨hst, how, hix, fun h => nomatch h⟩
    | _ =>
      obtain ⟨how, hix, hf⟩ := hnot (by simp [hst, Place.state])
      exact ⟨hst, how, hix, fun _ => hf⟩

theorem Group.freed_at_bad {r : Group} (h : r.faulted = true) : (TakeMemory.freed r).At .bad :=
  ⟨if_pos h, rfl, rfl, fun _ => rfl⟩

theorem Group.freed_at_dirty {r : Group} (h : r.faulted = false) : (TakeMemory.freed r).At .dirty :=
  ⟨if_neg (by simp [h]), rfl, rfl, fun _ => rfl⟩

/-- The record of a group that goes from one place that no take owns to another. -/
theorem Group.At.withState {r : Group} {pl : Place} (h : r.At pl) (q : Place) (hp : pl.owner = none) (hpi : pl.index = none)
    (hq : q.owner = none) (hqi : q.index = none) : ({ r with state := q.state } : Group).At q :=
  ⟨rfl, h.2.1.trans (hp.trans hq.symm), h.2.2.1.trans (hpi.trans hqi.symm), fun _ => h.2.2.2 hp⟩

namespace TakeMemory

/-- `State.MapLaw` (R41, see `State.GroupLaw.mapped_iff`): every group is in a place that its record says. -/
def Mapped (m : TakeMemory) : Prop :=
  m.groups.length = 32768 ∧ ∀ x, x < 32768 → ∃ pl, (x, pl) ∈ m.placed ∧ (m.group x).At pl

section
variable {m : TakeMemory}

/-- The record of a group says the place that the group is in. -/
theorem Mapped.record (h : m.Mapped) (hg : m.Grouped) {x : Nat} {pl : Place} (hp : (x, pl) ∈ m.placed) : (m.group x).At pl := by
  have hx : x < 32768 := by
    rw [← List.mem_range, ← hg.2.mem_iff, ← m.map_placed]
    exact List.mem_map_of_mem (f := Prod.fst) hp
  obtain ⟨q, hq, hat⟩ := h.2 x hx
  rwa [hg.placed_inj hp hq]

/-- One group goes to place `q`, and the others stay where they are. -/
theorem Mapped.moveOne {m' : TakeMemory} (h : m.Mapped) {g : Nat} {r : Group} {q : Place} (hgs : m'.groups = m.groups.set g r)
    (hself : (g, q) ∈ m'.placed) (hr : r.At q) (hk : ∀ x pl, x ≠ g → (x, pl) ∈ m.placed → (x, pl) ∈ m'.placed) : m'.Mapped := by
  have hgroup : ∀ x, m'.group x = (m.setGroup g r).group x := fun x => by simp only [group, setGroup, hgs]
  refine ⟨by rw [hgs, List.length_set, h.1], fun x hx => ?_⟩
  rw [hgroup, group_setGroup]
  by_cases hxg : x = g
  · subst hxg
    rw [if_pos ⟨rfl, h.1 ▸ hx⟩]
    exact ⟨q, hself, hr⟩
  · rw [if_neg fun hc => hxg hc.1]
    obtain ⟨pl, hpl, hat⟩ := h.2 x hx
    exact ⟨pl, hk x pl hxg hpl, hat⟩

theorem Mapped.leave (h : m.Mapped) (hg : m.Grouped) {gs : List Nat} {T : Tab Take} {mem : Memory}
    (hp : (ownedGroups m.takes).Perm (gs ++ ownedGroups T)) (hk : ∀ id i x, x ∉ gs → Owns m.takes id i x → Owns T id i x) :
    Mapped { m.releaseAll gs with takes := T, mem := mem } := by
  obtain ⟨hn, hb⟩ := hg.owned_spec hp
  have hdirty := m.releaseAll_dirty hn
  have hbad := m.releaseAll_bad hn hb
  refine ⟨(m.releaseAll_length gs).trans h.1, fun x hx => ?_⟩
  have hrec := m.group_releaseAll hn (h.1 ▸ hx : x < m.groups.length)
  change ∃ pl, _ ∧ ((m.releaseAll gs).group x).At pl
  rw [hrec]
  by_cases hxg : x ∈ gs
  · rw [if_pos hxg]
    cases hf : (m.group x).faulted with
    | true => exact ⟨.bad, mem_placed.2 (hbad.mem_iff.2 (List.mem_append_right _ (List.mem_filter.2 ⟨hxg, hf⟩))),
        Group.freed_at_bad hf⟩
    | false => exact ⟨.dirty, mem_placed.2 (hdirty ▸ List.mem_append_right _ (List.mem_filter.2 ⟨hxg, by simp [hf]⟩)),
        Group.freed_at_dirty hf⟩
  · rw [if_neg hxg]
    obtain ⟨pl, hpl, hat⟩ := h.2 x hx
    refine ⟨pl, ?_, hat⟩
    rw [mem_placed] at hpl ⊢
    cases pl with
    | clean => exact (m.releaseAll_clean gs).symm ▸ hpl
    | dirty => exact hdirty ▸ List.mem_append_left _ hpl
    | erasing => exact (m.releaseAll_engine gs).trans hpl
    | bad => exact hbad.mem_iff.2 (List.mem_append_left _ hpl)
    | owned id i => exact hk id i x hxg hpl

theorem mapped_atReset : TakeMemory.atReset.Mapped := by
  refine ⟨List.length_replicate, fun x hx => ⟨.dirty, mem_placed.2 ?_, ?_⟩⟩
  · exact List.mem_range'_1.2 ⟨Nat.zero_le x, by omega⟩
  · have hr : TakeMemory.atReset.group x = Group.atReset := by
      simp only [group, atReset, List.getD_eq_getElem?_getD, List.getElem?_replicate]
      split <;> rfl
    rw [hr]
    exact ⟨rfl, rfl, rfl, fun _ => rfl⟩

/-- R41: every move keeps the group map true to the places. -/
theorem Mapped.move (h : m.Mapped) (hg : m.Grouped) {m' : TakeMemory} (hm : m.Move m') : m'.Mapped := by
  cases hm with
  | records G hl hr =>
    refine ⟨hl.trans h.1, fun x hx => ?_⟩
    obtain ⟨hst, how, hix, hf⟩ := hr x
    obtain ⟨pl, hpl, hat⟩ := h.2 x hx
    refine ⟨pl, hpl, hst.trans hat.1, how.trans hat.2.1, hix.trans hat.2.2.1, fun hfree => ?_⟩
    rcases hf with hf | hf
    · exact hf.trans (hat.2.2.2 hfree)
    · obtain ⟨id, i, ho⟩ := mem_ownedGroups.1 hf
      rw [hg.placed_inj hpl (mem_placed.2 ho : (x, Place.owned id i) ∈ m.placed)] at hfree
      cases hfree
  | leave gs T mem hw hp hk => exact h.leave hg hp hk
  | draw g id i rest T hc hw hp ho hk =>
    refine h.moveOne (q := .owned id i) rfl (mem_placed.2 ho) ⟨rfl, rfl, rfl, fun hf => nomatch hf⟩ fun x pl hx hpl => ?_
    rw [mem_placed] at hpl ⊢
    cases pl with
    | clean =>
      rw [hc] at hpl
      simpa [drawTo, hc, hx] using hpl
    | owned id i => exact hk id i x hpl
    | _ => exact hpl
  | eraseStart =>
    rcases m.eraseStart_cases with he | ⟨g, rest, hnone, hd, he⟩
    · rwa [he]
    rw [he]
    have hat : (m.group g).At .dirty := h.record hg (mem_placed.2 (hd ▸ List.mem_cons_self ..))
    refine h.moveOne (q := .erasing) rfl (mem_placed.2 rfl) (hat.withState .erasing rfl rfl rfl rfl) fun x pl hx hpl => ?_
    rw [mem_placed] at hpl ⊢
    cases pl with
    | dirty =>
      rw [hd] at hpl
      simpa [hx] using hpl
    | erasing => simp [hnone] at hpl
    | _ => exact hpl
  | eraseDone =>
    unfold TakeMemory.eraseDone
    split
    · exact h
    next g he =>
    have hat : (m.group g).At .erasing := h.record hg (mem_placed.2 he)
    refine h.moveOne (q := .clean) rfl (mem_placed.2 (List.mem_append_right _ (List.mem_singleton_self g)))
      (hat.withState .clean rfl rfl rfl rfl) fun x pl hx hpl => ?_
    rw [mem_placed] at hpl ⊢
    cases pl with
    | clean => exact List.mem_append_left _ hpl
    | erasing => exact absurd (Option.some.inj (he.symm.trans hpl)).symm hx
    | _ => exact hpl
  | eraseFailed =>
    unfold TakeMemory.eraseFailed
    split
    · exact h
    next g he =>
    have hat : (m.group g).At .erasing := h.record hg (mem_placed.2 he)
    have hbad := insertBad_perm (hg.not_bad_of_engine he)
    refine h.moveOne (q := .bad) rfl (mem_placed.2 (hbad.mem_iff.2 (List.mem_cons_self ..)))
      (hat.withState .bad rfl rfl rfl rfl) fun x pl hx hpl => ?_
    rw [mem_placed] at hpl ⊢
    cases pl with
    | bad => exact hbad.mem_iff.2 (List.mem_cons_of_mem _ hpl)
    | erasing => exact absurd (Option.some.inj (he.symm.trans hpl)).symm hx
    | _ => exact hpl
  | reset => exact mapped_atReset

end

end TakeMemory

/-- R41: the law on the group map, place by place. -/
theorem State.GroupLaw.mapped_iff {s : State} (h : s.GroupLaw) : s.takeMem.Mapped ↔ s.MapLaw := by
  have hg : s.takeMem.Grouped := h
  have hwhere : ∀ {x pl}, (x, pl) ∈ s.takeMem.placed → ∀ q, (x, q) ∈ s.takeMem.placed ↔ q = pl :=
    fun hp q => ⟨fun hq => hg.placed_inj hq hp, fun he => he ▸ hp⟩
  refine and_congr_right fun _ => forall_congr' fun x => forall_congr' fun hx => ?_
  obtain ⟨pl, hpl⟩ := hg.exists_place hx
  have hclean := hwhere hpl .clean
  have hdirty := hwhere hpl .dirty
  have herasing := hwhere hpl .erasing
  have hbad := hwhere hpl .bad
  have howned := fun id i => hwhere hpl (.owned id i)
  simp only [TakeMemory.mem_placed, owns_iff_look hg.1] at hclean hdirty herasing hbad howned
  rw [hclean, hdirty, herasing, hbad]
  simp only [howned]
  have hat : (∃ pl, (x, pl) ∈ s.takeMem.placed ∧ (s.takeMem.group x).At pl) ↔ (s.takeMem.group x).At pl :=
    ⟨fun ⟨q, hq, hr⟩ => (hwhere hpl q).1 hq ▸ hr, fun hr => ⟨pl, hpl, hr⟩⟩
  rw [hat]
  exact Group.at_iff _ pl

end Sys2Proof.Machine
end

section
/-! SUPPORT. What leaves take memory as it is, and what requests, programs, erases and slots make of its groups: every step is made
of moves. -/

namespace Sys2Proof.Machine

/-! ### What leaves take memory as it is -/

namespace State

section
variable (s : State)

@[simp] theorem endLane_takeMem (i : Fin 4) (mark : Render → LastEnd) : (s.endLane i mark).takeMem = s.takeMem := by
  unfold endLane
  split <;> rfl

@[simp] theorem endRender_takeMem (c : ChapterId) (way : EndWay) : (s.endRender c way).takeMem = s.takeMem := by
  unfold endRender
  split
  · rfl
  · exact endLane_takeMem ..

@[simp] theorem failRender_takeMem (i : Fin 4) (cause : FailCause) (group position : Option Nat) :
    (s.failRender i cause group position).takeMem = s.takeMem := by
  unfold failRender
  split
  · rfl
  · exact endLane_takeMem ..

@[simp] theorem commit_takeMem (i : Fin 4) : (s.commit i).takeMem = s.takeMem := by
  unfold commit
  split <;> rfl

@[simp] theorem endHold_takeMem (slot : Nat) : (s.endHold slot).takeMem = s.takeMem := by
  rcases endHold_cases s slot with he | he | ⟨i, _, _, _, he⟩
  · rw [he]
  · rw [he]; rfl
  · rw [he]; exact commit_takeMem ..

@[simp] theorem resetPort_takeMem (p : Port) : (s.resetPort p).takeMem = s.takeMem :=
  foldl_unchanged (f := State.takeMem) (g := State.endHold) endHold_takeMem _ _

@[simp] theorem unqueue_takeMem (c : ChapterId) (k : Chapter) (way : EndWay) : (s.unqueue c k way).takeMem = s.takeMem := by
  unfold unqueue
  dsimp only
  split
  · split
    · rfl
    · exact endRender_takeMem ..
  · rfl

@[simp] theorem editChapter_takeMem (c : ChapterId) (k : Chapter) : (s.editChapter c k).takeMem = s.takeMem := by
  unfold editChapter
  dsimp only
  split
  · exact endRender_takeMem ..
  · rfl

@[simp] theorem dispatchOne_takeMem : s.dispatchOne.takeMem = s.takeMem := by
  have hto : ∀ i c origin q, (s.dispatchTo i c origin q).takeMem = s.takeMem := by
    intro i c origin q
    unfold dispatchTo
    split <;> rfl
  unfold dispatchOne
  split
  · rfl
  · split
    · exact hto ..
    · exact hto ..
    · rfl

@[simp] theorem expireHold_takeMem : s.expireHold.takeMem = s.takeMem := by
  unfold expireHold
  split
  · rfl
  · exact endHold_takeMem ..

@[simp] theorem measured_takeMem (i : Fin 4) (r : Render) (held : Option HeldBlock) (m : Meter) :
    (s.measured i r held m).takeMem = s.takeMem := by
  unfold measured
  split <;> rfl

@[simp] theorem askCommit_takeMem (i : Fin 4) (r : Render) (gain : GainRecord) (saturated : Nat) (es : List Encoder) :
    (s.askCommit i r gain saturated es).takeMem = s.takeMem := by
  unfold askCommit
  split
  · rfl
  · exact commit_takeMem ..

@[simp] theorem encoded_takeMem (i : Fin 4) (r : Render) (a : Assembly) (held : Option HeldBlock) (gain : GainRecord)
    (saturated : Nat) (es : List Encoder) (xs : List Int) : (s.encoded i r a held gain saturated es xs).takeMem = s.takeMem := by
  unfold encoded
  dsimp only
  split
  · unfold takeFrame endEncode
    dsimp only
    split
    · exact askCommit_takeMem ..
    · rfl
  · exact failRender_takeMem ..

end

end State

/-! ### The reads of a slot -/

theorem Built.cons_eq_readError {x : Int} {b : Built} {g : Nat} (h : b.cons x = .readError g) : b = .readError g := by
  cases b with
  | readError => exact h
  | complete | stray => cases h

/-- R63: a read that fails is the read of an owned group. -/
theorem buildBlock_readError {m : TakeMemory} {f : Option Nat} {l : List Source} {held : Option HeldBlock} {n g : Nat}
    (h : buildBlock m f l held n = .readError g) : ∃ take block, m.blockGroup take block = some g := by
  induction l generalizing held n with
  | nil => cases h
  | cons x l ih =>
    cases x with
    | zero => exact ih (Built.cons_eq_readError h)
    | sample take index weight =>
      unfold buildBlock at h
      split at h
      · cases h
      · next g' hv =>
        cases h
        unfold visitBlock at hv
        split at hv
        · cases hv
        · split at hv
          · cases hv
          · next hg =>
            split at hv
            · cases hv; exact ⟨_, _, hg⟩
            · cases hv
      · exact ih (Built.cons_eq_readError h)

/-- R63, R85: a slot leaves take memory as it is, or marks the owned group of a read that failed. -/
theorem grantSlot_takeMem {s t : State} {f : Option Nat} (h : s.grantSlot f = some t) : t.takeMem = s.takeMem ∨
    ∃ g take block, s.takeMem.blockGroup take block = some g ∧ t.takeMem = s.takeMem.markFaulted g := by
  have hread : ∀ {i r g l held}, buildBlock s.takeMem f l held 0 = .readError g → (s.failRead i r g).takeMem = s.takeMem ∨
      ∃ g' take block, s.takeMem.blockGroup take block = some g' ∧
        (s.failRead i r g).takeMem = s.takeMem.markFaulted g' := fun hb =>
    have ⟨take, block, hg⟩ := buildBlock_readError hb
    .inr ⟨_, take, block, hg, State.failRender_takeMem ..⟩
  unfold State.grantSlot at h
  split at h
  · cases h; exact .inl rfl
  split at h
  · cases h; exact .inl rfl
  split at h
  · unfold State.progress at h
    split at h
    · split at h
      · cases h
      · next hb => cases h; exact hread hb
      · cases h; exact .inl (State.measured_takeMem ..)
    · split at h
      · cases h
      · next hb => cases h; exact hread hb
      · cases h; exact .inl (State.encoded_takeMem ..)
    · cases h; exact .inl rfl
  · cases h; exact .inl rfl

/-! ### Moves -/

theorem TakeMemory.blockGroup_owned {m : TakeMemory} {take block g : Nat} (h : m.blockGroup take block = some g) :
    g ∈ ownedGroups m.takes := by
  have he := Option.join_eq_some_iff.1 h
  unfold TakeMemory.entry at he
  split at he
  · cases he
  · next t ht => exact mem_ownedGroups.2 ⟨take, _, t, Tab.mem_of_look ht, he⟩

/-- R70: an entry becomes a hole. -/
theorem Take.owned_set_none {t : Take} {i g : Nat} (h : t.groups[i]? = some (some g)) :
    t.owned.Perm ([g] ++ Take.owned { t with groups := t.groups.set i none }) := by
  obtain ⟨hi, hg⟩ := List.getElem?_eq_some_iff.1 h
  have hsplit : t.groups = t.groups.take i ++ some g :: t.groups.drop (i + 1) := by
    rw [← hg, List.getElem_cons_drop, List.take_append_drop]
  simp only [Take.owned]
  rw [List.set_eq_take_append_cons_drop, if_pos hi]
  conv_lhs => rw [hsplit]
  simp only [List.filterMap_append, List.filterMap_cons, id]
  exact List.perm_middle

/-- R57: the last entry leaves the list. -/
theorem Take.owned_dropLast {t t' : Take} {g : Nat} (h : t.groups = t'.groups ++ [some g]) : t.owned.Perm ([g] ++ t'.owned) := by
  rw [Take.owned, h, List.filterMap_append]
  exact List.perm_append_comm

theorem ownedGroups_map (T : Tab Take) {f : Take → Take} (hf : ∀ t, (f t).groups = t.groups) :
    ownedGroups (T.map (fun e => (e.1, f e.2))) = ownedGroups T := by
  simp only [ownedGroups, List.flatMap_map, Take.owned, hf]

theorem Owns.map {T : Tab Take} {id i g : Nat} (h : Owns T id i g) {f : Take → Take} (hf : ∀ t, (f t).groups = t.groups) :
    Owns (T.map (fun e => (e.1, f e.2))) id i g := by
  obtain ⟨t, ht, hi⟩ := h
  exact ⟨f t, List.mem_map_of_mem (f := fun e : Nat × Take => (e.1, f e.2)) ht, (hf t).symm ▸ hi⟩

/-- A property of take memory, with R42, that every move of groups keeps. -/
structure MovesKeep (Q : TakeMemory → Prop) : Prop where
  grouped : ∀ {m}, Q m → m.Grouped
  move : ∀ {m m'}, Q m → m.Move m' → Q m'

namespace MovesKeep

variable {Q : TakeMemory → Prop} {m : TakeMemory}

/-- One record changes in its count, or gets the faulted mark in the hands of a take. -/
theorem setGroup (h : MovesKeep Q) (hm : Q m) {g : Nat} {r : Group} (hst : r.state = (m.group g).state)
    (how : r.owner = (m.group g).owner) (hix : r.index = (m.group g).index)
    (hf : r.faulted = (m.group g).faulted ∨ g ∈ ownedGroups m.takes) : Q (m.setGroup g r) := by
  refine h.move hm (.records _ List.length_set fun x => ?_)
  have hx := m.group_setGroup g x r
  change ((m.setGroup g r).group x).state = _ ∧ ((m.setGroup g r).group x).owner = _ ∧ ((m.setGroup g r).group x).index = _ ∧
    (((m.setGroup g r).group x).faulted = _ ∨ _)
  rw [hx]
  split
  · next hc =>
    rw [hc.1]
    exact ⟨hst, how, hix, hf⟩
  · exact ⟨rfl, rfl, rfl, .inl rfl⟩

theorem mark (h : MovesKeep Q) (hm : Q m) {g : Nat} (hg : g ∈ ownedGroups m.takes) :
    Q (m.setGroup g { m.group g with faulted := true }) :=
  h.setGroup hm rfl rfl rfl (.inr hg)

theorem raise (h : MovesKeep Q) (gs : List Nat) (hm : Q m) : Q (m.raise gs) :=
  foldl_keeps (P := Q) (g := TakeMemory.changeRefs (· + 1)) (fun _ _ hm => h.setGroup hm rfl rfl rfl (.inl rfl)) gs hm

theorem lower (h : MovesKeep Q) (gs : List Nat) (hm : Q m) : Q (m.lower gs) :=
  foldl_keeps (P := Q) (g := TakeMemory.changeRefs (· - 1)) (fun _ _ hm => h.setGroup hm rfl rfl rfl (.inl rfl)) gs hm

/-- A take's record is replaced by one that has lost the groups of `gs` and no other entry. -/
theorem setTake (h : MovesKeep Q) (hm : Q m) {id : Nat} {t t' : Take} (ht : Tab.look m.takes id = some t) (gs : List Nat)
    (hp : t.owned.Perm (gs ++ t'.owned))
    (hk : ∀ i x : Nat, x ∉ gs → t.groups[i]? = some (some x) → t'.groups[i]? = some (some x)) (mem : Memory) :
    Q { (m.releaseAll gs).setTake id t' with mem := mem } := by
  have hw := (h.grouped hm).1
  have hperm : (ownedGroups m.takes).Perm (gs ++ ownedGroups (Tab.put m.takes id t')) := by
    refine (ownedGroups_perm hw ht).trans ((hp.append_right _).trans ?_)
    rw [List.append_assoc]
    exact (ownedGroups_put hw id t').symm.append_left _
  have hmove := h.move hm (.leave gs (Tab.put m.takes id t') mem (Tab.wf_put _ _ hw) hperm fun id' i x hx ho => ?_)
  · simpa only [TakeMemory.setTake, TakeMemory.releaseAll_takes] using hmove
  · obtain ⟨u, hu, hi⟩ := ho
    by_cases hid : id' = id
    · subst hid
      cases ht.symm.trans (Tab.look_of_mem hw hu)
      exact ⟨t', (Tab.mem_put_iff hw).2 (.inl rfl), hk i x hx hi⟩
    · exact ⟨u, (Tab.mem_put_iff hw).2 (.inr ⟨hu, hid⟩), hi⟩

/-- A take's record is replaced by one with the same group list. -/
theorem keepGroups (h : MovesKeep Q) (hm : Q m) {id : Nat} {t t' : Take} (ht : Tab.look m.takes id = some t)
    (hg : t'.groups = t.groups) (mem : Memory) : Q { m.setTake id t' with mem := mem } :=
  h.setTake hm ht [] (by simp [Take.owned, hg]) (fun i x _ hx => hg ▸ hx) mem

/-- Takes leave the table, and their groups leave them. -/
theorem dropTakes (h : MovesKeep Q) (hm : Q m) (f : Nat × Take → Bool) :
    Q { m.releaseAll (ownedGroups (m.takes.filter f)) with takes := m.takes.filter (fun e => !f e) } := by
  have hw := (h.grouped hm).1
  have hperm : (ownedGroups m.takes).Perm (ownedGroups (m.takes.filter f) ++ ownedGroups (m.takes.filter (fun e => !f e))) := by
    rw [ownedGroups, ownedGroups, ownedGroups, ← List.flatMap_append]
    exact (List.filter_append_perm f m.takes).symm.flatMap_right _
  have hmove := h.move hm (.leave _ (m.takes.filter (fun e => !f e)) m.mem (Tab.wf_filter _ hw) hperm fun id i x hx ho => ?_)
  · simpa only [TakeMemory.releaseAll_mem] using hmove
  · obtain ⟨t, ht, hi⟩ := ho
    refine ⟨t, List.mem_filter.2 ⟨ht, ?_⟩, hi⟩
    rw [Bool.not_eq_true']
    by_contra hf
    exact hx (mem_ownedGroups.2 ⟨id, i, t, List.mem_filter.2 ⟨ht, by simpa using hf⟩, hi⟩)

/-- One take leaves the table, and its groups leave it. -/
theorem dropTake (h : MovesKeep Q) (hm : Q m) {id : Nat} {t : Take} (ht : Tab.look m.takes id = some t) :
    Q { m.releaseAll t.owned with takes := Tab.drop m.takes id } := by
  have hw := (h.grouped hm).1
  refine h.move hm (.leave t.owned (Tab.drop m.takes id) (m.releaseAll t.owned).mem (Tab.wf_drop _ hw) (ownedGroups_perm hw ht)
    fun id' i x hx ho => ?_)
  obtain ⟨u, hu, hi⟩ := ho
  refine ⟨u, List.mem_filter.2 ⟨hu, decide_eq_true fun hid => hx ?_⟩, hi⟩
  subst hid
  cases ht.symm.trans (Tab.look_of_mem hw hu)
  exact Take.mem_owned.2 ⟨i, hi⟩

/-- R51: a take is opened with the head of the clean pool. -/
theorem openTake (h : MovesKeep Q) (hm : Q m) {th id g : Nat} {rest : List Nat} (hf : Tab.look m.takes id = none)
    (hc : m.clean = g :: rest) : Q (m.open_ th id g) := by
  have hw := (h.grouped hm).1
  have hperm := ownedGroups_put hw id (newTake th g)
  rw [Tab.drop_of_look_none hw hf] at hperm
  refine h.move hm (.draw g id 0 rest _ hc (Tab.wf_put _ _ hw) hperm
    ⟨newTake th g, (Tab.mem_put_iff hw).2 (.inl rfl), rfl⟩ fun id' i x ho => ?_)
  obtain ⟨u, hu, hi⟩ := ho
  refine ⟨u, (Tab.mem_put_iff hw).2 (.inr ⟨hu, fun hid => ?_⟩), hi⟩
  subst hid
  cases hf.symm.trans (Tab.look_of_mem hw hu)

/-- R54: the head of the clean pool becomes the last entry of a take's list. -/
theorem extendTake (h : MovesKeep Q) (hm : Q m) {id g : Nat} {rest : List Nat} {t t' : Take}
    (ht : Tab.look m.takes id = some t) (hc : m.clean = g :: rest) (hg : t'.groups = t.groups ++ [some g]) :
    Q ((m.drawTo g id t.groups.length).setTake id t') := by
  have hw := (h.grouped hm).1
  have hself : (id, t') ∈ Tab.put m.takes id t' := (Tab.mem_put_iff hw).2 (.inl rfl)
  have hperm : (ownedGroups (Tab.put m.takes id t')).Perm (g :: ownedGroups m.takes) := by
    refine (ownedGroups_put hw id t').trans (List.Perm.trans ?_ ((ownedGroups_perm hw ht).symm.cons g))
    rw [Take.owned, hg, List.filterMap_append]
    exact (List.perm_append_singleton g t.owned).append_right _
  refine h.move hm (.draw g id _ rest _ hc (Tab.wf_put _ _ hw) hperm ⟨t', hself, by simp [hg]⟩ fun id' i x ho => ?_)
  obtain ⟨u, hu, hi⟩ := ho
  by_cases hid : id' = id
  · subst hid
    cases ht.symm.trans (Tab.look_of_mem hw hu)
    refine ⟨t', hself, ?_⟩
    rw [hg, List.getElem?_append_left (List.getElem?_eq_some_iff.1 hi).1, hi]
  · exact ⟨u, (Tab.mem_put_iff hw).2 (.inr ⟨hu, hid⟩), hi⟩

theorem startBlock (h : MovesKeep Q) (hm : Q m) {id : Nat} {t : Take} (ht : Tab.look m.takes id = some t) (block : Nat) :
    Q (m.startBlock id t block) := by
  unfold TakeMemory.startBlock TakeMemory.drawForBlock
  split
  · next g rest _ hc => exact h.extendTake hm ht hc rfl
  · exact h.keepGroups hm ht (t' := { t with inFlight := some block }) rfl m.mem

theorem discardAt (h : MovesKeep Q) (take : Nat) (hm : Q m) (i : Nat) : Q (TakeMemory.discardAt take m i) := by
  unfold TakeMemory.discardAt
  split
  · exact hm
  next t ht =>
  split
  · next g _ hg =>
    have hi := Option.join_eq_some_iff.1 hg
    refine h.setTake hm ht (t' := { t with groups := t.groups.set i none }) [g] (Take.owned_set_none hi) (fun j x hx hj => ?_) _
    rw [List.getElem?_set_ne, hj]
    rintro rfl
    cases hi.symm.trans hj
    exact hx (List.mem_singleton_self _)
  · exact hm

/-- R70, R71: a discard. -/
theorem commitDiscard (h : MovesKeep Q) {s : State} (hm : Q s.takeMem) (p : Port) (take first last : Nat) :
    Q (s.commitDiscard p take first last).takeMem := by
  have hrun : Q (s.takeMem.discardRun take first last) := foldl_keeps (P := Q) (fun _ i hm => h.discardAt take hm i) _ hm
  unfold State.commitDiscard
  dsimp only
  split
  · next he =>
    simp only [State.setSequence_takeMem, State.setTakeMem_takeMem] at he
    unfold TakeMemory.emptied at he
    split at he
    · cases he
    · next t ht =>
      have hnone : t.owned = [] := by simpa using (Bool.and_eq_true_iff.1 he).2
      have hdrop := h.dropTake hrun ht
      rwa [hnone] at hdrop
  · exact hrun

/-- R16, R17: a title retired. -/
theorem retire (h : MovesKeep Q) {s : State} (hm : Q s.takeMem) (th : Nat) (t : Title) : Q (s.retire th t).takeMem := by
  have hw := (h.grouped hm).1
  have hdrop := h.dropTakes (h.lower (s.titleGroups th t) hm) (fun e => decide (e.2.title = th))
  rw [TakeMemory.lower_takes] at hdrop
  rw [State.retire_eq]
  dsimp only
  rwa [State.titleTakes, Tab.foldl_drop_filter hw]

/-- Requests keep it. -/
theorem change (h : MovesKeep Q) {p : Port} {s t : State} (hc : Change p s t) (hm : Q s.takeMem) : Q t.takeMem := by
  cases hc with
  | tone th t r => exact h.lower _ (h.raise _ hm)
  | retired th t => exact h.retire hm th t
  | deleted th index t k =>
    have hq := s.unqueue_takeMem ⟨th, index⟩ k .deleted
    exact h.lower _ (hq ▸ hm)
  | edited th index t k k' up dn =>
    rw [State.editChapter_takeMem]
    exact h.lower dn (h.raise up hm)
  | cancelled th index t k => exact (s.unqueue_takeMem ⟨th, index⟩ k .cancelled).symm ▸ hm
  | closed slot => exact (s.endHold_takeMem slot).symm ▸ hm
  | portReset => exact (s.resetPort_takeMem p).symm ▸ hm
  | takeOpened th id g rest hf hc => exact h.openTake hm (by simpa using List.find?_some hf) hc
  | writing take t ht => exact h.startBlock hm ht _
  | takeFreed take t ht =>
    have hdrop := h.dropTake hm ht
    simpa using hdrop
  | takeClosed take tail t ht => exact h.keepGroups hm ht (t' := { t with state := .closed, tail := some tail }) rfl s.takeMem.mem
  | discarded take first last => exact h.commitDiscard hm p take first last
  | _ => exact hm

theorem blockFailed (h : MovesKeep Q) {s : State} (hm : Q s.takeMem) {take : Nat} {t : Take} (block : Nat) {g : Nat}
    (ht : Tab.look s.takeMem.takes take = some t) (hg : t.current = some g) : Q (s.blockFailed take t block g).takeMem := by
  have hlast := Option.join_eq_some_iff.1 hg
  obtain ⟨es, hes⟩ := List.getLast?_eq_some_iff.1 hlast
  have howned : g ∈ ownedGroups s.takeMem.takes :=
    mem_ownedGroups.2 ⟨take, es.length, t, Tab.mem_of_look ht, by simp [hes]⟩
  have hmark := h.mark hm howned
  unfold State.blockFailed
  dsimp only
  split
  · have hdrop := h.dropTake hmark ht
    simpa using hdrop
  · split
    · have hsplit : t.groups = t.groups.dropLast ++ [some g] := by rw [hes, List.dropLast_concat]
      refine h.setTake hmark ht (t' := { t.faultedTake with groups := t.groups.dropLast }) [g] (Take.owned_dropLast hsplit)
        (fun i x hx hi => ?_) _
      rw [hsplit, List.getElem?_append] at hi
      split at hi
      · exact hi
      · exact absurd (by simpa using List.mem_of_getElem? hi) hx
    · exact h.keepGroups hmark ht (t' := t.faultedTake) rfl s.takeMem.mem

/-- Every step keeps a property of take memory that every move of groups keeps. -/
theorem kept (h : MovesKeep Q) : Kept (fun s => Q s.takeMem) where
  ports _ _ _ hm := hm
  pending _ _ hm := hm
  resetHeld _ _ hm := hm
  change _ _ _ hc hm := h.change hc hm
  endFetch _ _ hm := hm
  endHold s slot hm := (s.endHold_takeMem slot).symm ▸ hm
  eraseStart _ hm := h.move hm .eraseStart
  eraseDone _ hm := h.move hm .eraseDone
  eraseFailed _ hm := h.move hm .eraseFailed
  dispatch s hm := s.dispatchOne_takeMem.symm ▸ hm
  slot s t f ht hm := by
    rcases grantSlot_takeMem ht with he | ⟨g, take, block, hg, he⟩
    · exact he ▸ hm
    · rw [he]
      exact h.mark hm (TakeMemory.blockGroup_owned hg)
  advance _ hm := hm
  clock _ hm := hm
  expire s hm := s.expireHold_takeMem.symm ▸ hm
  abandon s hm := by
    have hf : ∀ t : Take, ({ t with inFlight := none } : Take).groups = t.groups := fun _ => rfl
    have hp := ownedGroups_map s.takeMem.takes hf
    exact h.move hm (.leave [] _ s.takeMem.mem (Tab.wf_map _ (fun _ => rfl) (h.grouped hm).1) (.of_eq hp.symm)
      fun id i x _ ho => ho.map hf)
  restart _ _ _ _ _ hm := h.move hm .reset
  blockDone s take t block data ht hm := h.keepGroups hm ht (t' := { t with blocks := t.blocks + 1, inFlight := none }) rfl _
  blockFailed s take t block g ht hg hm := h.blockFailed hm block ht hg

end MovesKeep

theorem groupedKeep : MovesKeep TakeMemory.Grouped := ⟨id, TakeMemory.Grouped.move⟩

theorem mappedKeep : MovesKeep (fun m => m.Grouped ∧ m.Mapped) :=
  ⟨fun hm => hm.1, fun hm hmove => ⟨hm.1.move hmove, hm.2.move hm.1 hmove⟩⟩

end Sys2Proof.Machine

namespace Sys2Proof.Settled

open Sys2Proof.Machine

/-- Settles O53: everything that the part does to take memory is made of moves, and each keeps every group in one place. -/
theorem stepsKeepGroups : Obligations.StepsKeepGroups := by
  unfold Obligations.StepsKeepGroups
  intro s t hg hstep
  exact groupedKeep.kept.step hstep hg

/-- Settles O56: each move keeps the record of every group true to its place. -/
theorem stepsKeepGroupMap : Obligations.StepsKeepGroupMap := by
  unfold Obligations.StepsKeepGroupMap
  intro s t hg hm hstep
  have hkept := mappedKeep.kept.step hstep ⟨hg, hg.mapped_iff.2 hm⟩
  exact (State.GroupLaw.mapped_iff (s := t) hkept.1).1 hkept.2

end Sys2Proof.Settled
end

section
/-! SUPPORT. R44, R46, R48: what each event of the Erase Engine makes of take memory, and when it makes nothing of it. -/

namespace Sys2Proof.Machine

/-- An event of the part while no device reset is held. -/
theorem event_next {f : State → State} {s : State} (h : s.resetHeld = none) : event f s = .next (f s).driveAttn := by
  simp [event, finish, h]

namespace TakeMemory

section
variable {m : TakeMemory} {g : Nat}

theorem eraseStart_none (h : m.engine ≠ none ∨ m.dirty = []) : m.eraseStart = m := by
  rcases m.eraseStart_cases with he | ⟨g, rest, hnone, hd, -⟩
  · exact he
  · rcases h with h | h
    · exact absurd hnone h
    · cases hd.symm.trans h

theorem eraseStart_head {rest : List Nat} (he : m.engine = none) (hd : m.dirty = g :: rest) :
    m.eraseStart = { m with
      groups := m.groups.set g { m.group g with state := .erasing }, dirty := rest, engine := some g } := by
  unfold eraseStart
  rw [he, hd]
  rfl

theorem eraseDone_none (h : m.engine = none) : m.eraseDone = m := by
  unfold eraseDone
  rw [h]

theorem eraseFailed_none (h : m.engine = none) : m.eraseFailed = m := by
  unfold eraseFailed
  rw [h]

theorem eraseDone_group (h : m.engine = some g) : m.eraseDone = { m with
    groups := m.groups.set g { m.group g with state := .clean }, clean := m.clean ++ [g], engine := none
    scrub := m.scrub && decide (g ≠ 32767), mem := Memory.clear m.mem (blockAddress g 0) 786432 } := by
  unfold eraseDone
  rw [h]
  rfl

theorem eraseFailed_group (h : m.engine = some g) : m.eraseFailed = { m with
    groups := m.groups.set g { m.group g with state := .bad }, bad := insertBad g m.bad, engine := none
    scrub := m.scrub && decide (g ≠ 32767) } := by
  unfold eraseFailed
  rw [h]
  rfl

end

end TakeMemory

/-- R44: the bytes of the group alone are no longer listed. -/
theorem Memory.read_clear_group (m : Memory) {g a : Nat} (h : a < g * 786432 ∨ (g + 1) * 786432 ≤ a) :
    Memory.read (Memory.clear m (blockAddress g 0) 786432) a = Memory.read m a := by
  have hfirst : blockAddress g 0 = g * 786432 := by rw [blockAddress, Nat.add_zero, Nat.mul_assoc]
  rw [hfirst]
  refine Memory.read_clear_other m ?_
  rwa [← Nat.succ_mul]

section
variable {s : State} (h : s.resetHeld = none) {m : TakeMemory}
include h

theorem exec_eraseStart (hm : s.takeMem.eraseStart = m) : exec .eraseStart s = .next (s.setTakeMem m).driveAttn :=
  hm ▸ event_next (f := fun s => s.setTakeMem s.takeMem.eraseStart) h

theorem exec_eraseCompletion (hm : s.takeMem.eraseDone = m) : exec .eraseCompletion s = .next (s.setTakeMem m).driveAttn :=
  hm ▸ event_next (f := fun s => s.setTakeMem s.takeMem.eraseDone) h

theorem exec_eraseFault (hm : s.takeMem.eraseFailed = m) : exec .eraseFault s = .next (s.setTakeMem m).driveAttn :=
  hm ▸ event_next (f := fun s => s.setTakeMem s.takeMem.eraseFailed) h

end

end Sys2Proof.Machine

namespace Sys2Proof.Settled

open Sys2Proof.Machine

/-- Settles O39: the engine, and for a start the dirty list, decide; the bytes are those that `Memory.clear` leaves. -/
theorem eraseEngine : Obligations.EraseEngine := by
  unfold Obligations.EraseEngine
  intro s h
  refine ⟨fun hnone => exec_eraseStart h (TakeMemory.eraseStart_none hnone),
    fun g rest he hd => exec_eraseStart h (TakeMemory.eraseStart_head he hd),
    fun he => ⟨exec_eraseCompletion h (TakeMemory.eraseDone_none he), exec_eraseFault h (TakeMemory.eraseFailed_none he)⟩,
    fun g he => ⟨⟨_, exec_eraseCompletion h (TakeMemory.eraseDone_group he), fun a ha => ?_⟩,
      exec_eraseFault h (TakeMemory.eraseFailed_group he)⟩⟩
  exact Memory.read_clear_group s.takeMem.mem ha

end Sys2Proof.Settled
end

section
/-! SUPPORT. R56 to R58: how the operation of a port ends, and what the end of a block program makes of take memory. -/

namespace Sys2Proof.Machine

/-! ### The end of an operation -/

theorem State.changePort_changePort (s : State) (p : Port) (f g : PortRecord → PortRecord) :
    (s.changePort p f).changePort p g = s.changePort p (fun q => g (f q)) := by
  simp [State.changePort, State.setPort, State.port]

/-- R182: the operation ends with its reply in the store, or under the discard mark without one. -/
theorem State.completeOp_eq {s : State} {p : Port} {b : Bool} (hb : (s.port p).discardMark = b) (o : Operation) (res : Result) :
    s.completeOp p o res = if b then
      s.changePort p (fun q => { q with state := .idle, operation := none, discardMark := false })
    else s.changePort p (fun q => { q with
      state := .replyReady, operation := none,
      reply := some ⟨res.status, o.tag, { res.flags with discardReset := o.discardReset }, res.results⟩ }) := by
  unfold State.completeOp State.answer
  rw [State.changePort_changePort, hb]

/-- R72: the end of a take's marks is about the sequences alone. -/
theorem Ports.dropMarks_discardMark (q : Ports) (id : Nat) (p : Port) :
    ((q.dropMarks id).get p).discardMark = (q.get p).discardMark := by
  rw [Ports.get_dropMarks]

/-! ### The end of a block program -/

/-- R56, in the terms of the take's list: the group that holds the block. -/
theorem TakeMemory.blockGroup_of_entry {m : TakeMemory} {take block g : Nat} {t : Take} (ht : Tab.look m.takes take = some t)
    (hg : t.groups[block / 256]? = some (some g)) : m.blockGroup take block = some g := by
  simp [TakeMemory.blockGroup, TakeMemory.entry, ht, hg]

theorem TakeMemory.blockDone_eq {m : TakeMemory} {take block g : Nat} {t : Take} (data : List Byte)
    (hg : m.blockGroup take block = some g) : m.blockDone take t block data = { m with
      takes := Tab.put m.takes take { t with blocks := t.blocks + 1, inFlight := none }
      mem := Memory.writeBytes m.mem (blockAddress g (block % 256)) data } := by
  unfold TakeMemory.blockDone
  rw [hg]
  rfl

/-- R45, R57: a group that has just got the faulted mark leaves its take for the bad set. -/
theorem TakeMemory.release_marked {m : TakeMemory} {g : Nat} (hg : g < m.groups.length) :
    (m.setGroup g { m.group g with faulted := true }).release g = { m with
      groups := m.groups.set g ⟨.bad, none, none, (m.group g).refs, false⟩, bad := insertBad g m.bad } := by
  have hself : (m.setGroup g { m.group g with faulted := true }).group g = { m.group g with faulted := true } := by
    simp [TakeMemory.group_setGroup, hg]
  unfold TakeMemory.release
  rw [hself, if_pos rfl]
  simp [TakeMemory.setGroup]

section
variable {s : State} {take block g : Nat} {t : Take}

theorem State.blockFailed_later (h0 : block ≠ 0) (hb : block % 256 ≠ 0) : s.blockFailed take t block g = { s with
    takeMem := { s.takeMem with
      groups := s.takeMem.groups.set g { s.takeMem.group g with faulted := true }
      takes := Tab.put s.takeMem.takes take { t with state := .faulted, tail := some 1024, inFlight := none } } } := by
  unfold State.blockFailed
  dsimp only
  rw [if_neg h0, if_neg hb]
  rfl

theorem State.blockFailed_first (hg : g < s.takeMem.groups.length) (h0 : block ≠ 0) (hb : block % 256 = 0) :
    s.blockFailed take t block g = { s with
      takeMem := { s.takeMem with
        groups := s.takeMem.groups.set g ⟨.bad, none, none, (s.takeMem.group g).refs, false⟩
        bad := insertBad g s.takeMem.bad
        takes := Tab.put s.takeMem.takes take
          { t with state := .faulted, tail := some 1024, inFlight := none, groups := t.groups.dropLast } } } := by
  unfold State.blockFailed
  dsimp only
  rw [if_neg h0, if_pos hb, TakeMemory.release_marked hg]
  rfl

theorem State.blockFailed_zero (hg : g < s.takeMem.groups.length) (ht : t.groups = [some g]) :
    s.blockFailed take t 0 g = { s with
      takeMem := { s.takeMem with
        groups := s.takeMem.groups.set g ⟨.bad, none, none, (s.takeMem.group g).refs, false⟩
        bad := insertBad g s.takeMem.bad
        takes := Tab.drop s.takeMem.takes take }
      ports := s.ports.dropMarks take } := by
  have howned : t.owned = [g] := by simp [Take.owned, ht]
  unfold State.blockFailed
  dsimp only
  rw [if_pos rfl, howned, TakeMemory.releaseAll_cons, TakeMemory.release_marked hg]
  rfl

end

/-- R57: the reply where the take stays in the table. -/
theorem faultReply_kept {block : Nat} (h0 : block ≠ 0) (blocks g : Nat) :
    faultReply blocks block g = { status := .programFault, results := le 4 blocks ++ (2#8 :: le 2 g) } := by
  unfold faultReply
  rw [decide_eq_false h0]
  rfl

section
variable {s : State} {p : Port} {o : Operation} {take block g : Nat} {data : List Byte} {t : Take}

theorem exec_programCompletion (h : s.resetHeld = none) (ho : (s.port p).operation = some o)
    (hw : o.work = .program take block data) (ht : Tab.look s.takeMem.takes take = some t) :
    exec (.programCompletion p) s = .next ((s.setTakeMem (s.takeMem.blockDone take t block data)).completeOp p o
      { status := .ok, results := le 4 (t.blocks + 1) }).driveAttn := by
  refine (event_next (f := fun s => s.programDone p) h).trans ?_
  unfold State.programDone
  simp only [ho, hw, ht]

theorem exec_programFault (h : s.resetHeld = none) (ho : (s.port p).operation = some o)
    (hw : o.work = .program take block data) (ht : Tab.look s.takeMem.takes take = some t)
    (hg : t.groups.getLast? = some (some g)) :
    exec (.programFault p) s = .next ((s.blockFailed take t block g).completeOp p o
      (faultReply t.blocks block g)).driveAttn := by
  have hcurrent : t.current = some g := by simp [Take.current, hg]
  refine (event_next (f := fun s => s.programFailed p) h).trans ?_
  unfold State.programFailed
  simp only [ho, hw, ht, hcurrent]

end

end Sys2Proof.Machine

namespace Sys2Proof.Settled

open Sys2Proof.Machine

/-- Settles O38: the place of the block in its take decides what its end makes of take memory; `State.completeOp_eq` gives the
port. -/
theorem programEnds : Obligations.ProgramEnds := by
  unfold Obligations.ProgramEnds
  intro p tag dr take block data s t h ho ht
  refine ⟨fun g hg hm => ⟨Memory.writeBytes s.takeMem.mem (blockAddress g (block % 256)) data, ?_, fun j hj => ?_,
    fun a ha => ?_⟩, fun g hg => ⟨fun h0 hb => ?_, fun hlen h0 hb => ?_, fun hlen h0 hgs => ?_⟩⟩
  · rw [exec_programCompletion h ho rfl ht, TakeMemory.blockDone_eq data (TakeMemory.blockGroup_of_entry ht hg),
      State.completeOp_eq (b := (s.port p).discardMark)]
    · rfl
    · rfl
  · exact Memory.read_writeBytes data _ j hm hj
  · exact Memory.read_writeBytes_other _ data ha
  · rw [exec_programFault h ho rfl ht hg, State.blockFailed_later h0 hb, faultReply_kept h0,
      State.completeOp_eq (b := (s.port p).discardMark)]
    · rfl
  · rw [exec_programFault h ho rfl ht hg, State.blockFailed_first hlen h0 hb, faultReply_kept h0,
      State.completeOp_eq (b := (s.port p).discardMark)]
    · rfl
  · subst h0
    rw [exec_programFault h ho rfl ht hg, State.blockFailed_zero hlen hgs,
      State.completeOp_eq (b := (s.port p).discardMark)]
    · rfl
    · exact Ports.dropMarks_discardMark s.ports take p

end Sys2Proof.Settled
end

section
/-! SUPPORT. R51, R59, R60: the opening and the closing of a take. -/

namespace Sys2Proof.Machine

/-! ### The free take ids -/

namespace TakeMemory

variable {m : TakeMemory}

theorem freeId_eq_none (h : ∀ id, 1 ≤ id → id ≤ 1024 → Tab.look m.takes id ≠ none) : m.freeId = none := by
  refine List.find?_range'_eq_none.2 fun i hlo hhi => ?_
  simpa [← Option.isSome_iff_ne_none] using h i hlo (by omega)

theorem freeId_eq_some {id : Nat} (hlo : 1 ≤ id) (hhi : id ≤ 1024) (hfree : Tab.look m.takes id = none)
    (hlow : ∀ j, 1 ≤ j → j < id → Tab.look m.takes j ≠ none) : m.freeId = some id := by
  refine List.find?_range'_eq_some.2 ⟨by simp [hfree], List.mem_range'_1.2 (by omega), fun j hj hlt => ?_⟩
  simpa [← Option.isSome_iff_ne_none] using hlow j hj hlt

/-- R43: the head of the clean pool leaves it for the take. -/
theorem drawTo_head {g take index : Nat} {rest : List Nat} (hc : m.clean = g :: rest) : m.drawTo g take index = { m with
    groups := m.groups.set g ⟨.owned, some take, some index, 0, false⟩, clean := rest } := by
  simp [drawTo, setGroup, hc]

/-- R45: an unmarked group leaves its take for the tail of the dirty list. -/
theorem release_unmarked {g : Nat} (hg : (m.group g).faulted = false) : m.release g = { m with
    groups := m.groups.set g ⟨.dirty, none, none, (m.group g).refs, false⟩, dirty := m.dirty ++ [g] } := by
  simp [release, setGroup, hg]

end TakeMemory

/-! ### OPEN-TAKE -/

section
variable {s : State} {th id : Nat} {ti : Title} (hti : s.title? th = some ti) (hst : ti.state = .opened)
include hti hst

theorem openTake_full (hid : s.takeMem.freeId = none) : openTake th s = refuse .full s := by
  rw [openTake, withTitle_some hti, if_neg (not_not.2 hst), hid]

theorem openTake_notReady (hid : s.takeMem.freeId = some id) (hc : s.takeMem.clean = []) :
    openTake th s = refuse .notReady s := by
  rw [openTake, withTitle_some hti, if_neg (not_not.2 hst), hid, hc]

theorem openTake_taken {g : Nat} {rest : List Nat} (hid : s.takeMem.freeId = some id) (hc : s.takeMem.clean = g :: rest) :
    openTake th s = accept (le 2 id ++ le 2 g) (s.setTakeMem { s.takeMem with
      groups := s.takeMem.groups.set g ⟨.owned, some id, some 0, 0, false⟩, clean := rest
      takes := Tab.put s.takeMem.takes id ⟨th, .recording, 0, none, [some g], none⟩ }) := by
  rw [openTake, withTitle_some hti, if_neg (not_not.2 hst), hid, hc]
  simp only [TakeMemory.open_, TakeMemory.drawTo_head hc]
  rfl

end

/-! ### CLOSE-TAKE -/

section
variable {s : State} {th take tail : Nat} {ti : Title} {t : Take} (hti : s.title? th = some ti) (ht : s.take? th take = some t)
include hti ht

theorem closeTake_badState (hst : t.state ≠ .recording) : closeTake th take tail s = refuse .badState s := by
  rw [closeTake, withTitle_some hti, withTake_some ht, if_pos hst]

variable (hst : t.state = .recording)
include hst

theorem closeTake_busy (hb : t.inFlight ≠ none) : closeTake th take tail s = refuse .busy s := by
  rw [closeTake, withTitle_some hti, withTake_some ht, if_neg (not_not.2 hst), if_pos (Option.isSome_iff_ne_none.2 hb)]

variable (hb : t.inFlight = none)
include hb

theorem closeTake_range (hr : tail = 0 ∨ 1024 < tail) : closeTake th take tail s = refuse .range s := by
  rw [closeTake, withTitle_some hti, withTake_some ht, if_neg (not_not.2 hst), hb, if_neg (by decide), if_pos (by omega)]

variable (hlo : 1 ≤ tail) (hhi : tail ≤ 1024)
include hlo hhi

theorem closeTake_closed (hn : 1 ≤ t.blocks) : closeTake th take tail s =
    accept (le 4 t.blocks ++ (le 2 tail ++ le 4 ((t.blocks - 1) * 1024 + tail)))
      (s.setTakeMem (s.takeMem.setTake take { t with state := .closed, tail := some tail })) := by
  rw [closeTake, withTitle_some hti, withTake_some ht, if_neg (not_not.2 hst), hb, if_neg (by decide), if_neg (by omega),
    if_neg (by omega)]

theorem closeTake_freed {g : Nat} (hn : t.blocks = 0) (hgs : t.groups = [some g]) (hg : (s.takeMem.group g).faulted = false) :
    closeTake th take tail s = accept (le 4 0) { s with
      takeMem := { s.takeMem with
        groups := s.takeMem.groups.set g ⟨.dirty, none, none, (s.takeMem.group g).refs, false⟩
        dirty := s.takeMem.dirty ++ [g], takes := Tab.drop s.takeMem.takes take }
      ports := s.ports.dropMarks take } { freed := true } := by
  have howned : t.owned = [g] := by simp [Take.owned, hgs]
  rw [closeTake, withTitle_some hti, withTake_some ht, if_neg (not_not.2 hst), hb, if_neg (by decide), if_neg (by omega),
    if_pos hn, howned, TakeMemory.releaseAll_cons, TakeMemory.release_unmarked hg]
  rfl

end

/-! ### A take leaves the table -/

/-- A request has ended its own port's sequence, so the end of a take's marks and the request's arrival commute. -/
theorem State.heard_dropMarks (s : State) (p : Port) (k id : Nat) :
    (s.heard p k).ports.dropMarks id = (({ s with ports := s.ports.dropMarks id } : State).heard p k).ports := by
  refine Ports.ext fun q => ?_
  rw [Ports.get_dropMarks]
  by_cases hq : q = p
  · subst hq
    simp [State.heard, State.changePort, State.setPort, State.port, Ports.get_dropMarks]
  · simp [State.heard, State.changePort, State.setPort, Ports.get_set_other _ _ hq, Ports.get_dropMarks]

/-- A request whose owner replies `res` and drops a take, `t` being what it leaves of the part besides the sequences. -/
theorem exec_drops {i : Instr} {p : Port} {tag : Byte} {r : Request} {s : State} {res : Result} (t : State) (id : Nat)
    (hi : i.request? = some (p, tag, r)) (h : s.listens p) (ha : s.allows p (requestClass r)) (hf : formatOk r = true)
    (hd : isDiscard r = false)
    (hh : handle p r (s.heard p (operandLength r)) =
      (.reply res, { t with ports := (s.heard p (operandLength r)).ports.dropMarks id })) :
    exec i s = .next (({ t with ports := s.ports.dropMarks id } : State).answered p tag (operandLength r) (s.marked p) res) := by
  rw [State.heard_dropMarks] at hh
  rw [exec_request hi, request_reply tag h ha hf hd hh]
  exact congrArg _ (answer_heard (s := { s with ports := s.ports.dropMarks id }) (t := { t with ports := s.ports.dropMarks id })
    tag _ res rfl)

end Sys2Proof.Machine

namespace Sys2Proof.Settled

open Sys2Proof.Machine

/-- Settles O35: the lowest free id and the clean pool decide an opening, the take's record a closing. -/
theorem takesOpenAndClose : Obligations.TakesOpenAndClose := by
  unfold Obligations.TakesOpenAndClose
  intro p tag th s ti h ha hti
  refine ⟨fun hst => ⟨fun hall => ?_, fun id hlo hhi hfree hlow => ?_⟩,
    fun take tail t ht => ⟨fun hst => ?_, fun hst hb => ?_, fun hst hb hr => ?_, fun hst hb hlo hhi hn => ?_,
      fun g hst hb hlo hhi hn hgs hg => ?_⟩⟩
  · exact exec_reads (r := .openTake th) rfl h ha rfl rfl (openTake_full hti hst (TakeMemory.freeId_eq_none hall))
  · have hid := TakeMemory.freeId_eq_some hlo hhi hfree hlow
    refine ⟨fun hc => ?_, fun g rest hc => ?_⟩
    · exact exec_reads (r := .openTake th) rfl h ha rfl rfl (openTake_notReady hti hst hid hc)
    · exact exec_answered (r := .openTake th) _ rfl h ha rfl rfl rfl (openTake_taken (s := s.heard p 0) hti hst hid hc)
  · exact exec_reads (r := .closeTake th take tail) rfl h ha rfl rfl (closeTake_badState hti ht hst)
  · exact exec_reads (r := .closeTake th take tail) rfl h ha rfl rfl (closeTake_busy hti ht hst hb)
  · exact exec_reads (r := .closeTake th take tail) rfl h ha rfl rfl (closeTake_range hti ht hst hb hr)
  · exact exec_answered (r := .closeTake th take tail) _ rfl h ha rfl rfl rfl (closeTake_closed hti ht hst hb hlo hhi hn)
  · exact exec_drops (i := .closeTake p tag th take tail) (r := .closeTake th take tail) { s with takeMem := _ } take rfl h ha
      rfl rfl (closeTake_freed (s := s.heard p 4) hti ht hst hb hlo hhi hn hgs hg)

end Sys2Proof.Settled
end

section
/-! SUPPORT. R52, R54: the checks of a written block and the start of its program. -/

namespace Sys2Proof.Machine

theorem startsGroup_iff {block : Nat} : startsGroup block = true ↔ block ≠ 0 ∧ block % 256 = 0 := by
  simp [startsGroup]

/-! ### The start of a block -/

namespace TakeMemory

section
variable {m : TakeMemory} {take block : Nat} {t : Take}

theorem startBlock_inGroup (hb : ¬ (block ≠ 0 ∧ block % 256 = 0)) : m.startBlock take t block = { m with
    takes := Tab.put m.takes take { t with inFlight := some block } } := by
  rw [← startsGroup_iff, Bool.not_eq_true] at hb
  simp [startBlock, drawForBlock, hb, setTake]

theorem startBlock_newGroup {g : Nat} {rest : List Nat} (hb : block ≠ 0 ∧ block % 256 = 0) (hc : m.clean = g :: rest) :
    m.startBlock take t block = { m with
      groups := m.groups.set g ⟨.owned, some take, some t.groups.length, 0, false⟩, clean := rest
      takes := Tab.put m.takes take { t with groups := t.groups ++ [some g], inFlight := some block } } := by
  rw [← startsGroup_iff] at hb
  simp [startBlock, drawForBlock, hb, hc, drawTo_head hc, setTake]

end

end TakeMemory

/-! ### WRITE-BLOCK -/

section
variable {s : State} {th take block : Nat} {data : List Byte} {crc : BitVec 16} {ti : Title} {t : Take}
  (hti : s.title? th = some ti) (ht : s.take? th take = some t)
include hti ht

theorem writeBlock_badState (hst : t.state ≠ .recording) : writeBlock th take block data crc s = refuse .badState s := by
  rw [writeBlock, withTitle_some hti, withTake_some ht, if_pos hst]

variable (hst : t.state = .recording)
include hst

theorem writeBlock_busy (hb : t.inFlight ≠ none) : writeBlock th take block data crc s = refuse .busy s := by
  rw [writeBlock, withTitle_some hti, withTake_some ht, if_neg (not_not.2 hst), if_pos (Option.isSome_iff_ne_none.2 hb)]

variable (hb : t.inFlight = none)
include hb

theorem writeBlock_crcError (hcrc : crc16 data ≠ crc) : writeBlock th take block data crc s = refuse .crcError s := by
  rw [writeBlock, withTitle_some hti, withTake_some ht, if_neg (not_not.2 hst), hb, if_neg (by decide), if_pos hcrc]

variable (hcrc : crc16 data = crc)
include hcrc

theorem writeBlock_seqMismatch (hn : block ≠ t.blocks) :
    writeBlock th take block data crc s = (.reply { status := .seqMismatch, results := le 4 t.blocks }, s) := by
  rw [writeBlock, withTitle_some hti, withTake_some ht, if_neg (not_not.2 hst), hb, if_neg (by decide), if_neg (not_not.2 hcrc),
    if_pos hn]

variable (hn : block = t.blocks)
include hn

theorem writeBlock_full (hf : block = 1048576) : writeBlock th take block data crc s = refuse .full s := by
  rw [writeBlock, withTitle_some hti, withTake_some ht, if_neg (not_not.2 hst), hb, if_neg (by decide), if_neg (not_not.2 hcrc),
    if_neg (not_not.2 hn), if_pos (hn ▸ hf)]

variable (hf : block ≠ 1048576)
include hf

theorem writeBlock_notReady (ho : block ≠ 0 ∧ block % 256 = 0) (hc : s.takeMem.clean = []) :
    writeBlock th take block data crc s = refuse .notReady s := by
  rw [writeBlock, withTitle_some hti, withTake_some ht, if_neg (not_not.2 hst), hb, if_neg (by decide), if_neg (not_not.2 hcrc),
    if_neg (not_not.2 hn), if_neg (hn ▸ hf), if_pos ⟨startsGroup_iff.2 ho, hc⟩]

theorem writeBlock_started (hc : ¬ ((block ≠ 0 ∧ block % 256 = 0) ∧ s.takeMem.clean = [])) :
    writeBlock th take block data crc s =
      (.started (.program take block data), s.setTakeMem (s.takeMem.startBlock take t block)) := by
  rw [← startsGroup_iff] at hc
  rw [writeBlock, withTitle_some hti, withTake_some ht, if_neg (not_not.2 hst), hb, if_neg (by decide), if_neg (not_not.2 hcrc),
    if_neg (not_not.2 hn), if_neg (hn ▸ hf), if_neg hc]

end

/-! ### A frame refused for its format, and a request that executes -/

theorem exec_malformed {i : Instr} {p : Port} {tag : Byte} {r : Request} {s : State} (hi : i.request? = some (p, tag, r))
    (h : s.listens p) (hf : formatOk r = false) :
    exec i s = .next (s.answered p tag (operandLength r) (s.marked p) { status := .malformed }) := by
  rw [exec_request hi, request_taken tag h, State.takeRequest, if_pos hf]
  simp [State.turnAway, State.answered, State.replied, State.answer, State.setSequence, State.changePort, State.setPort,
    State.heardOn, State.port, State.marked]

/-- A request whose owner starts an operation and leaves the ports as it found them, `t` being what it leaves of the part. -/
theorem exec_executes {i : Instr} {p : Port} {tag : Byte} {r : Request} {s : State} {w : Work} (t : State)
    (hi : i.request? = some (p, tag, r)) (h : s.listens p) (ha : s.allows p (requestClass r)) (hf : formatOk r = true)
    (hd : isDiscard r = false) (hp : t.ports = s.ports)
    (hh : handle p r (s.heard p (operandLength r)) =
      (.started w, { t with ports := (s.heard p (operandLength r)).ports })) :
    exec i s = .next (t.executes p tag (operandLength r) (s.marked p) w) := by
  rw [exec_request hi, request_started tag h ha hf hd hh]
  obtain ⟨_, _, _, _, _, _, _, _, tp, _, _, _⟩ := t
  subst hp
  simp [State.executes, State.execute, State.changePort, State.setPort, State.heard, State.port]

section
variable {s : State} {p : Port} {tag : Byte} {th take block : Nat} {data : List Byte} {crc : BitVec 16} (h : s.listens p)
  (ha : s.allows p .take) (hlen : data.length = 3072)
include h ha hlen

theorem exec_writeBlock_reads {res : Result}
    (hh : writeBlock th take block data crc (s.heard p 3080) = (.reply res, s.heard p 3080)) :
    exec (.writeBlock p tag th take block data crc) s = .next (s.answered p tag 3080 (s.marked p) res) := by
  have hk : operandLength (.writeBlock th take block data crc) = 3080 := by simp [operandLength, hlen]
  rw [← hk] at hh ⊢
  exact exec_reads (r := .writeBlock th take block data crc) rfl h ha (by simp [formatOk, hlen]) rfl hh

theorem exec_writeBlock_executes {w : Work} {t : Take} {m : TakeMemory} (hm : s.takeMem.startBlock take t block = m)
    (hh : writeBlock th take block data crc (s.heard p 3080) =
      (.started w, (s.heard p 3080).setTakeMem ((s.heard p 3080).takeMem.startBlock take t block))) :
    exec (.writeBlock p tag th take block data crc) s =
      .next ((s.setTakeMem m).executes p tag 3080 (s.marked p) w) := by
  have hk : operandLength (.writeBlock th take block data crc) = 3080 := by simp [operandLength, hlen]
  rw [State.heard_takeMem, hm] at hh
  rw [← hk] at hh ⊢
  exact exec_executes (r := .writeBlock th take block data crc) _ rfl h ha (by simp [formatOk, hlen]) rfl rfl hh

end

end Sys2Proof.Machine

namespace Sys2Proof.Settled

open Sys2Proof.Machine

/-- Settles O37: the checks of R52 one after the other, and for a taken block whether it starts a group. -/
theorem writeBlock : Obligations.WriteBlock := by
  unfold Obligations.WriteBlock
  intro p tag th take block data crc s h
  refine ⟨fun hlen => ?_, fun ti t hlen ha hti ht => ?_⟩
  · exact exec_malformed (r := .writeBlock th take block data crc) rfl h (by simp [formatOk, hlen])
  refine ⟨fun hst => ?_, fun hst hb => ?_, fun hst hb => ⟨fun hcrc => ?_, fun hcrc hn => ?_, fun hcrc hn => ⟨fun hmax => ?_,
    fun hmax ho hc => ?_, fun hmax ho => ?_, fun g rest hmax ho hc => ?_⟩⟩⟩
  · exact exec_writeBlock_reads h ha hlen (writeBlock_badState hti ht hst)
  · exact exec_writeBlock_reads h ha hlen (writeBlock_busy hti ht hst hb)
  · exact exec_writeBlock_reads h ha hlen (writeBlock_crcError hti ht hst hb hcrc)
  · exact exec_writeBlock_reads h ha hlen (writeBlock_seqMismatch hti ht hst hb hcrc hn)
  · exact exec_writeBlock_reads h ha hlen (writeBlock_full hti ht hst hb hcrc hn hmax)
  · exact exec_writeBlock_reads h ha hlen (writeBlock_notReady hti ht hst hb hcrc hn hmax ho hc)
  · exact exec_writeBlock_executes h ha hlen (TakeMemory.startBlock_inGroup ho)
      (writeBlock_started hti ht hst hb hcrc hn hmax fun hno => ho hno.1)
  · exact exec_writeBlock_executes h ha hlen (TakeMemory.startBlock_newGroup ho hc)
      (writeBlock_started hti ht hst hb hcrc hn hmax fun hno => List.cons_ne_nil g rest (hc.symm.trans hno.2))

end Sys2Proof.Settled
end

section
/-! SUPPORT. R53: the register of the CRC-16 as a polynomial over the field of two elements, and its steps as the rules of
remainders. -/

namespace Sys2Proof.Machine

open Polynomial

/-! ### Bits and words as polynomials -/

/-- The coefficient that a bit stands for. -/
noncomputable def bitCoeff (b : Bool) : (ZMod 2)[X] := if b then 1 else 0

/-- The polynomial of a list of bits, highest power first, as R53 divides it. -/
noncomputable def bitPoly (bits : List Bool) : (ZMod 2)[X] := bits.foldl (fun q b => q * X + bitCoeff b) 0

/-- The polynomial of a word: bit `i` is the coefficient of `X ^ i`. -/
noncomputable def wordPoly {w : Nat} (x : BitVec w) : (ZMod 2)[X] := ∑ i ∈ Finset.range w, bitCoeff (x.getLsbD i) * X ^ i

/-- R53: x^16 + x^12 + x^5 + 1. -/
noncomputable def crcPoly : (ZMod 2)[X] := X ^ 16 + X ^ 12 + X ^ 5 + 1

@[simp] theorem bitCoeff_false : bitCoeff false = 0 := rfl
@[simp] theorem bitCoeff_true : bitCoeff true = 1 := rfl

theorem bitCoeff_xor (a b : Bool) : bitCoeff (a ^^ b) = bitCoeff a + bitCoeff b := by
  cases a with
  | false => simp
  | true =>
    cases b with
    | false => simp
    | true => exact CharTwo.two_eq_zero.symm.trans one_add_one_eq_two.symm

theorem bitPoly_concat (bits : List Bool) (b : Bool) : bitPoly (bits ++ [b]) = bitPoly bits * X + bitCoeff b := by
  simp [bitPoly]

theorem bitPoly_append (xs ys : List Bool) : bitPoly (xs ++ ys) = bitPoly xs * X ^ ys.length + bitPoly ys := by
  induction ys using List.reverseRecOn with
  | nil => simp [bitPoly]
  | append_singleton ys b ih =>
    rw [← List.append_assoc, bitPoly_concat, bitPoly_concat, ih, List.length_append, List.length_singleton]
    ring

theorem bitPoly_zeros (n : Nat) : bitPoly (List.replicate n false) = 0 := by
  induction n with
  | zero => rfl
  | succ n ih => rw [List.replicate_succ', bitPoly_concat, ih, bitCoeff_false, zero_mul, zero_add]

theorem bitPoly_map_range (n : Nat) (f : Nat → Bool) :
    bitPoly ((List.range n).map f) = ∑ i ∈ Finset.range n, bitCoeff (f (n - 1 - i)) * X ^ i := by
  induction n with
  | zero => rfl
  | succ n ih =>
    rw [List.range_succ, List.map_append, List.map_singleton, bitPoly_concat, ih, Finset.sum_range_succ', Finset.sum_mul]
    congr 1
    · refine Finset.sum_congr rfl fun i _ => ?_
      rw [show n + 1 - 1 - (i + 1) = n - 1 - i by omega]
      ring
    · simp

/-- A word's bits, most significant first, have the word's polynomial. -/
theorem bitPoly_msbFirst {w : Nat} (x : BitVec w) : bitPoly ((List.range w).map x.getMsbD) = wordPoly x := by
  rw [bitPoly_map_range, wordPoly]
  refine Finset.sum_congr rfl fun i hi => ?_
  have hlt : i < w := Finset.mem_range.1 hi
  rw [BitVec.getMsbD, decide_eq_true (by omega : w - 1 - i < w), Bool.true_and,
    show w - 1 - (w - 1 - i) = i by omega]

theorem wordPoly_xor {w : Nat} (x y : BitVec w) : wordPoly (x ^^^ y) = wordPoly x + wordPoly y := by
  simp only [wordPoly, BitVec.getLsbD_xor, bitCoeff_xor, add_mul, Finset.sum_add_distrib]

/-! ### The steps of the register -/

/-- A shift by one is a product by `X`, without the power that leaves the register. -/
theorem wordPoly_shift (c : BitVec 16) : X * wordPoly c = wordPoly (c <<< 1) + bitCoeff c.msb * X ^ 16 := by
  have hlow : (c <<< 1).getLsbD 0 = false := by simp
  have hnext : ∀ i ∈ Finset.range 15, bitCoeff ((c <<< 1).getLsbD (i + 1)) * X ^ (i + 1) =
      X * (bitCoeff (c.getLsbD i) * X ^ i) := fun i hi => by
    have hlt : i < 15 := Finset.mem_range.1 hi
    have hbit : (c <<< 1).getLsbD (i + 1) = c.getLsbD i := by
      rw [BitVec.getLsbD_shiftLeft, decide_eq_true (by omega : i + 1 < 16), decide_eq_false (by omega : ¬ i + 1 < 1)]
      rfl
    rw [hbit]
    ring
  rw [wordPoly, wordPoly, Finset.sum_range_succ, Finset.sum_range_succ' (n := 15), Finset.sum_congr rfl hnext, ← Finset.mul_sum,
    hlow, BitVec.msb_eq_getLsbD_last, bitCoeff_false]
  ring

/-- A byte at the top of the register. -/
theorem wordPoly_topByte (b : Byte) : wordPoly (b.zeroExtend 16 <<< 8) = wordPoly b * X ^ 8 := by
  have hlow : ∀ i ∈ Finset.range 8, bitCoeff ((b.zeroExtend 16 <<< 8).getLsbD i) * X ^ i = 0 := fun i hi => by
    have hlt : i < 8 := Finset.mem_range.1 hi
    simp [BitVec.getLsbD_shiftLeft, hlt]
  have hhigh : ∀ i ∈ Finset.range 8, bitCoeff ((b.zeroExtend 16 <<< 8).getLsbD (8 + i)) * X ^ (8 + i) =
      bitCoeff (b.getLsbD i) * X ^ i * X ^ 8 := fun i hi => by
    have hlt : i < 8 := Finset.mem_range.1 hi
    have hbit : (b.zeroExtend 16 <<< 8).getLsbD (8 + i) = b.getLsbD i := by
      rw [BitVec.getLsbD_shiftLeft, decide_eq_true (by omega : 8 + i < 16), decide_eq_false (by omega : ¬ 8 + i < 8),
        Nat.add_sub_cancel_left, BitVec.getLsbD_setWidth, decide_eq_true (by omega : i < 16)]
      simp
    rw [hbit]
    ring
  rw [wordPoly, wordPoly, Finset.sum_range_add (n := 8) (m := 8), Finset.sum_eq_zero hlow, zero_add, Finset.sum_congr rfl hhigh,
    Finset.sum_mul]

theorem wordPoly_feedback : wordPoly 0x1021#16 = X ^ 12 + X ^ 5 + 1 := by
  have hbits : wordPoly 0x1021#16 = 1 + X ^ 5 + X ^ 12 := by simp [wordPoly, Finset.sum_range_succ]
  rw [hbits]
  ring

/-- One step of the register: a product by `X`, up to a multiple of the divisor. -/
theorem mk_crc16Bit (c : BitVec 16) : AdjoinRoot.mk crcPoly (wordPoly (crc16Bit c)) = AdjoinRoot.mk crcPoly (X * wordPoly c) := by
  have htwo : (2 : (ZMod 2)[X]) = 0 := CharTwo.two_eq_zero
  rw [wordPoly_shift, crc16Bit]
  cases c.msb with
  | false => simp
  | true =>
    rw [if_pos rfl, wordPoly_xor, wordPoly_feedback, AdjoinRoot.mk_eq_mk, bitCoeff_true]
    exact ⟨-1, by rw [crcPoly]; linear_combination (X ^ 12 + X ^ 5 + 1) * htwo⟩

theorem mk_crc16Bit_repeat (n : Nat) (c : BitVec 16) :
    AdjoinRoot.mk crcPoly (wordPoly (Nat.repeat crc16Bit n c)) = AdjoinRoot.mk crcPoly (wordPoly c * X ^ n) := by
  induction n with
  | zero => simp [Nat.repeat]
  | succ n ih =>
    rw [Nat.repeat, mk_crc16Bit, map_mul, ih, ← map_mul]
    ring_nf

theorem mk_crc16Byte (c : BitVec 16) (b : Byte) : AdjoinRoot.mk crcPoly (wordPoly (crc16Byte c b)) =
    AdjoinRoot.mk crcPoly (wordPoly c * X ^ 8 + wordPoly b * X ^ 16) := by
  rw [crc16Byte, mk_crc16Bit_repeat, wordPoly_xor, wordPoly_topByte]
  ring_nf

/-- The bits of a block's bytes in the order of R53. -/
def byteBits (bs : List Byte) : List Bool := bs.flatMap (fun b => (List.range 8).map b.getMsbD)

theorem bitPoly_byteBits_concat (bs : List Byte) (b : Byte) :
    bitPoly (byteBits (bs ++ [b])) = bitPoly (byteBits bs) * X ^ 8 + wordPoly b := by
  rw [byteBits, List.flatMap_append, List.flatMap_singleton, bitPoly_append, bitPoly_msbFirst]
  simp [byteBits]

/-- R53: the register after the bytes and the bits followed by 16 zeros have the same remainder. -/
theorem mk_crc16 (bs : List Byte) :
    AdjoinRoot.mk crcPoly (bitPoly (byteBits bs) * X ^ 16) = AdjoinRoot.mk crcPoly (wordPoly (crc16 bs)) := by
  induction bs using List.reverseRecOn with
  | nil => simp [byteBits, bitPoly, crc16, wordPoly]
  | append_singleton bs b ih =>
    have hstep : crc16 (bs ++ [b]) = crc16Byte (crc16 bs) b := by simp [crc16]
    rw [hstep, mk_crc16Byte, map_add, map_mul _ (wordPoly (crc16 bs)), ← ih, ← map_mul, ← map_add, bitPoly_byteBits_concat]
    ring_nf

/-! ### The two values and the bytes on the link -/

theorem crc16_checkValue :
    crc16 [0x31#8, 0x32#8, 0x33#8, 0x34#8, 0x35#8, 0x36#8, 0x37#8, 0x38#8, 0x39#8] = 0x31C3#16 := by
  decide +kernel

theorem crc16_zeros (n : Nat) : crc16 (List.replicate n 0#8) = 0#16 := by
  induction n with
  | zero => rfl
  | succ n ih =>
    rw [List.replicate_succ', crc16, List.foldl_concat, ← crc16, ih]
    decide

theorem le_word (c : BitVec 16) : le 2 c.toNat = [c.truncate 8, (c >>> 8).truncate 8] := by
  have hhigh : BitVec.ofNat 8 (c.toNat / 256) = (c >>> 8).truncate 8 := by
    refine BitVec.eq_of_toNat_eq ?_
    simp [Nat.shiftRight_eq_div_pow]
  rw [le, le, le, hhigh, BitVec.truncate, BitVec.ofNat_toNat]

end Sys2Proof.Machine

namespace Sys2Proof.Settled

open Sys2Proof.Machine

/-- Settles O36: each step of the register is a step of the division (`mk_crc16`). -/
theorem blockChecksum : Obligations.BlockChecksum := by
  unfold Obligations.BlockChecksum
  refine ⟨fun bs => ?_, crc16_checkValue, crc16_zeros 3072, fun th take block data crc => ?_⟩
  · obtain ⟨q, hq⟩ := AdjoinRoot.mk_eq_mk.1 (mk_crc16 bs)
    refine ⟨q, ?_⟩
    have hbits : bitPoly (byteBits bs ++ List.replicate 16 false) =
        q * crcPoly + bitPoly ((List.range 16).map (crc16 bs).getMsbD) := by
      rw [bitPoly_append, bitPoly_zeros, bitPoly_msbFirst, List.length_replicate]
      linear_combination hq
    exact hbits
  · rw [operandBytes, le_word]
    simp

end Sys2Proof.Settled
end

section
/-! SUPPORT. R65: what raising and lowering make of the counts, and which groups a span touches. -/

namespace Sys2Proof.Machine

namespace TakeMemory

/-- R65: the count of a group rises by the number of times it is named. -/
theorem group_raise (m : TakeMemory) (gs : List Nat) {x : Nat} (hx : x < m.groups.length) :
    (m.raise gs).group x = { m.group x with refs := (m.group x).refs + gs.count x } := by
  induction gs generalizing m with
  | nil => rfl
  | cons g gs ih =>
    have hstep : (m.changeRefs (· + 1) g).group x =
        { m.group x with refs := (m.group x).refs + if x = g then 1 else 0 } := by
      rw [changeRefs, group_setGroup]
      by_cases h : x = g
      · subst h; simp [hx]
      · simp [h]
    have hraise : m.raise (g :: gs) = (m.changeRefs (· + 1) g).raise gs := rfl
    rw [hraise, ih _ (by simpa [changeRefs] using hx), hstep, List.count_cons]
    by_cases h : x = g
    · subst h
      simp [Nat.add_assoc, Nat.add_comm 1]
    · simp [h, Ne.symm h]

theorem raise_length (m : TakeMemory) (gs : List Nat) : (m.raise gs).groups.length = m.groups.length :=
  foldl_unchanged (f := fun m : TakeMemory => m.groups.length) (g := changeRefs (· + 1)) (fun _ _ => length_setGroup ..) gs m

/-- R65: the record of a group after counts have been raised and then lowered. -/
theorem group_raise_lower (m : TakeMemory) (up dn : List Nat) {x : Nat} (hx : x < m.groups.length) :
    ((m.raise up).lower dn).group x = { m.group x with refs := (m.group x).refs + up.count x - dn.count x } := by
  rw [group_lower _ _ (by rwa [raise_length]), group_raise _ _ hx]

/-- R65: raising and lowering are about the group map alone. -/
theorem raise_lower_rest (m : TakeMemory) (up dn : List Nat) : { (m.raise up).lower dn with groups := m.groups } = m := by
  have hrest : ∀ (f : Nat → Nat) (gs : List Nat) (n : TakeMemory),
      { gs.foldl (changeRefs f) n with groups := m.groups } = { n with groups := m.groups } := fun f gs n =>
    foldl_unchanged (f := fun n : TakeMemory => { n with groups := m.groups }) (g := changeRefs f) (fun _ _ => rfl) gs n
  exact (hrest (· - 1) dn _).trans (hrest (· + 1) up m)

end TakeMemory

/-! ### The groups that a span touches -/

theorem mem_touchedIndexes {start length i : Nat} :
    i ∈ touchedIndexes start length ↔ start / 262144 ≤ i ∧ i ≤ (start + length - 1) / 262144 := by
  rw [touchedIndexes, List.mem_range'_1]
  omega

/-- R64: the indexes of a span, as a set. -/
theorem toFinset_touchedIndexes (start length : Nat) :
    (touchedIndexes start length).toFinset = Finset.Icc (start / 262144) ((start + length - 1) / 262144) := by
  ext i
  rw [List.mem_toFinset, mem_touchedIndexes, Finset.mem_Icc]

/-- R64: a span counts once in each entry of the group list that it touches. -/
theorem TakeMemory.count_touched (m : TakeMemory) (take start length g : Nat) :
    (m.touched take start length).count g =
      ((Finset.Icc (start / 262144) ((start + length - 1) / 262144)).filter (fun i => m.entry take i = some (some g))).card := by
  have hnodup : (touchedIndexes start length).Nodup := List.nodup_range'
  rw [TakeMemory.touched, List.count_filterMap, List.countP_eq_length_filter,
    ← List.toFinset_card_of_nodup (hnodup.filter _), List.toFinset_filter, toFinset_touchedIndexes]
  exact congrArg Finset.card (Finset.filter_congr fun i _ => beq_iff_eq.trans Option.join_eq_some_iff)

end Sys2Proof.Machine

namespace Sys2Proof.Settled

open Sys2Proof.Machine

/-- Settles O22: a span's indexes are there once, and each raise or lower moves one count. -/
theorem countsMove : Obligations.CountsMove := by
  unfold Obligations.CountsMove
  exact ⟨fun m take start length g _ => m.count_touched take start length g,
    fun m up dn => ⟨fun g hg => m.group_raise_lower up dn hg, m.raise_lower_rest up dn⟩⟩

end Sys2Proof.Settled
end


section
/-! SUPPORT. R64: the segments and room-tone spans of the part as one list of spans, what it says of take memory that they fit it and
are counted in it, and which changes of take memory keep that. -/

namespace Sys2Proof.Machine

/-! ### Spans -/

/-- R64: what touches groups: a segment of a chapter of a title, or the room-tone span of a title. -/
inductive TakeSpan where
  | segment (title : Nat) (g : Segment)
  | tone (title : Nat) (r : RoomSpan)

namespace TakeSpan

def title : TakeSpan → Nat
  | segment th _ => th
  | tone th _ => th

def take : TakeSpan → Nat
  | segment _ g => g.take
  | tone _ r => r.take

def start : TakeSpan → Nat
  | segment _ g => g.start
  | tone _ r => r.start

def length : TakeSpan → Nat
  | segment _ g => g.length
  | tone _ r => r.length

/-- R9 step 3, R24 steps 3 and 4: what the rules ask of a span's own fields. -/
def Sound : TakeSpan → Prop
  | segment _ g => 1 ≤ g.length ∧ g.fadeIn ≤ 48000 ∧ g.fadeOut ≤ 48000 ∧ g.gap ≤ 240000 ∧ g.fadeIn + g.fadeOut ≤ g.length
  | tone _ r => 4800 ≤ r.length ∧ r.length ≤ 96000

theorem Sound.length_pos {x : TakeSpan} (h : x.Sound) : 1 ≤ x.length := by
  cases x with
  | segment th g => exact h.1
  | tone th r => exact (by decide : 1 ≤ 4800).trans h.1

/-- R9, R24: the span fits take `t`, which is one of its title and not RECORDING. -/
def FitsTake (x : TakeSpan) (t : Take) : Prop :=
  x.Sound ∧ t.title = x.title ∧ t.state ≠ .recording ∧ spanFits t x.start x.length

/-- A span that fits a take touches an owned group of its list. -/
theorem FitsTake.owned {x : TakeSpan} {t : Take} (h : x.FitsTake t) : t.owned ≠ [] := by
  obtain ⟨hs, -, -, -, hf⟩ := h
  have hpos := hs.length_pos
  obtain ⟨g, hg⟩ := hf (x.start / 262144) le_rfl (by omega)
  exact List.ne_nil_of_mem (Take.mem_owned.2 ⟨_, hg⟩)

theorem FitsTake.ofTitle {x : TakeSpan} {t : Take} (h : x.FitsTake t) : t.title = x.title := by
  obtain ⟨-, hth, -, -⟩ := h
  exact hth

theorem FitsTake.idle {x : TakeSpan} {t : Take} (h : x.FitsTake t) : t.state ≠ .recording := by
  obtain ⟨-, -, hst, -⟩ := h
  exact hst

/-- Take `t'` serves the span as take `t` does, with the same groups. -/
def Alike (x : TakeSpan) (t t' : Take) : Prop :=
  t'.title = t.title ∧ t'.state ≠ .recording ∧ t'.sampleLength = t.sampleLength ∧
    ∀ i ∈ touchedIndexes x.start x.length, t'.groups[i]? = t.groups[i]?

theorem FitsTake.alike {x : TakeSpan} {t t' : Take} (h : x.FitsTake t) (ha : x.Alike t t') : x.FitsTake t' := by
  obtain ⟨hs, hth, -, hlen, hf⟩ := h
  obtain ⟨hth', hst', hlen', hgs⟩ := ha
  refine ⟨hs, hth'.trans hth, hst', hlen' ▸ hlen, fun i hlo hhi => ?_⟩
  rw [hgs i (mem_touchedIndexes.2 ⟨hlo, hhi⟩)]
  exact hf i hlo hhi

end TakeSpan

namespace TakeMemory

/-- The groups that a span touches. -/
def spanGroups (m : TakeMemory) (x : TakeSpan) : List Nat := m.touched x.take x.start x.length

/-- R9, R24, R50: the span fits the take that it names. -/
def Fits (m : TakeMemory) (x : TakeSpan) : Prop :=
  (1 ≤ x.take ∧ x.take ≤ 1024) ∧ ∃ t, Tab.look m.takes x.take = some t ∧ x.FitsTake t

/-- R64: each span of the list fits its take, and the count of each group is the number of spans that touch it. -/
def Counted (m : TakeMemory) (l : List TakeSpan) : Prop :=
  (∀ x ∈ l, m.Fits x) ∧ m.groups.length = 32768 ∧ ∀ g, g < 32768 → (m.group g).refs = (l.flatMap m.spanGroups).count g

end TakeMemory

/-- A table's number and the segments of its chapter record. -/
def segmentsOf (e : Nat × Chapter) : Nat × List Segment := (e.1, e.2.segments)

/-- A table's number and the room tone of its title record. -/
def toneOf (e : Nat × Title) : Nat × Option RoomSpan := (e.1, e.2.roomTone)

def chapterSpans (e : Nat × List Segment) : List TakeSpan := e.2.map (.segment (e.1 / 128))

def toneSpans (e : Nat × Option RoomSpan) : List TakeSpan := (e.2.map (.tone e.1)).toList

/-- Every segment and every room-tone span of the part. -/
def State.spans (s : State) : List TakeSpan :=
  (s.chapters.map segmentsOf).flatMap chapterSpans ++ (s.titles.map toneOf).flatMap toneSpans

theorem State.mem_spans {s : State} {x : TakeSpan} : x ∈ s.spans ↔
    (∃ e ∈ s.chapters, ∃ g ∈ e.2.segments, .segment (e.1 / 128) g = x) ∨
      ∃ e ∈ s.titles, ∃ r, e.2.roomTone = some r ∧ .tone e.1 r = x := by
  simp [State.spans, segmentsOf, toneOf, chapterSpans, toneSpans]

theorem State.references_eq (s : State) : s.references = s.spans.flatMap s.takeMem.spanGroups := by
  have htone : ∀ e : Nat × Title, s.takeMem.toneGroups e.2.roomTone = (toneSpans (toneOf e)).flatMap s.takeMem.spanGroups := by
    intro e
    unfold toneSpans toneOf
    dsimp only
    cases e.2.roomTone with
    | none => rfl
    | some r => exact (List.append_nil _).symm
  rw [State.references, State.spans, List.flatMap_append, List.flatMap_assoc, List.flatMap_assoc, List.flatMap_map,
    List.flatMap_map]
  congr 1
  · refine List.flatMap_congr fun e _ => ?_
    rw [chapterSpans, List.flatMap_map]
    rfl
  · exact List.flatMap_congr fun e _ => htone e

theorem State.take?_eq_some {s : State} {th take : Nat} {t : Take} :
    s.take? th take = some t ↔ (1 ≤ take ∧ take ≤ 1024) ∧ Tab.look s.takeMem.takes take = some t ∧ t.title = th := by
  constructor
  · intro h
    obtain ⟨hlook, hth, hr⟩ := State.take_look h
    exact ⟨hr, hlook, hth⟩
  · rintro ⟨hr, hlook, hth⟩
    simp [State.take?, hr, hlook, hth]

/-- `State.SpanLaw` and `State.CountLaw`, span by span. -/
theorem State.counted_iff {s : State} : s.takeMem.Counted s.spans ↔ s.SpanLaw ∧ s.CountLaw := by
  have hsegment : ∀ th g, s.takeMem.Fits (.segment th g) ↔
      ∃ t, s.take? th g.take = some t ∧ t.state ≠ .recording ∧ segmentFits t g := by
    intro th g
    simp only [TakeMemory.Fits, TakeSpan.FitsTake, TakeSpan.Sound, State.take?_eq_some, segmentFits]
    exact ⟨fun ⟨hr, t, hl, ⟨h1, h2, h3, h4, h5⟩, hth, hst, hf⟩ => ⟨t, ⟨hr, hl, hth⟩, hst, h1, h2, h3, h4, h5, hf⟩,
      fun ⟨t, ⟨hr, hl, hth⟩, hst, h1, h2, h3, h4, h5, hf⟩ => ⟨hr, t, hl, ⟨h1, h2, h3, h4, h5⟩, hth, hst, hf⟩⟩
  have htone : ∀ th r, s.takeMem.Fits (.tone th r) ↔ ∃ t, s.take? th r.take = some t ∧ t.state ≠ .recording ∧
      4800 ≤ r.length ∧ r.length ≤ 96000 ∧ spanFits t r.start r.length := by
    intro th r
    simp only [TakeMemory.Fits, TakeSpan.FitsTake, TakeSpan.Sound, State.take?_eq_some]
    exact ⟨fun ⟨hr, t, hl, ⟨h1, h2⟩, hth, hst, hf⟩ => ⟨t, ⟨hr, hl, hth⟩, hst, h1, h2, hf⟩,
      fun ⟨t, ⟨hr, hl, hth⟩, hst, h1, h2, hf⟩ => ⟨hr, t, hl, ⟨h1, h2⟩, hth, hst, hf⟩⟩
  have hspans : (∀ x ∈ s.spans, s.takeMem.Fits x) ↔ s.SpanLaw := by
    simp only [State.mem_spans, State.SpanLaw, ← hsegment, ← htone]
    constructor
    · exact fun h => ⟨fun e he g hg => h _ (.inl ⟨e, he, g, hg, rfl⟩), fun e he r hr => h _ (.inr ⟨e, he, r, hr, rfl⟩)⟩
    · rintro ⟨hc, ht⟩ x (⟨e, he, g, hg, rfl⟩ | ⟨e, he, r, hr, rfl⟩)
      · exact hc e he g hg
      · exact ht e he r hr
  rw [TakeMemory.Counted, hspans, State.CountLaw, State.references_eq]

/-! ### Changes of take memory -/

namespace TakeMemory

variable {m m' : TakeMemory} {l : List TakeSpan}

theorem mem_touched {take start length g : Nat} {t : Take} (ht : Tab.look m.takes take = some t) :
    g ∈ m.touched take start length ↔ ∃ i ∈ touchedIndexes start length, t.groups[i]? = some (some g) := by
  simp [touched, entry, ht, Option.join_eq_some_iff]

/-- Groups that spans touch are owned. -/
theorem owned_of_mem_spanGroups {x : TakeSpan} {g : Nat} (h : g ∈ m.spanGroups x) : g ∈ ownedGroups m.takes := by
  obtain ⟨i, -, hi⟩ := List.mem_filterMap.1 h
  have he := Option.join_eq_some_iff.1 hi
  unfold entry at he
  split at he
  · cases he
  · next t ht => exact mem_ownedGroups.2 ⟨_, i, t, Tab.mem_of_look ht, he⟩


theorem Counted.perm {l' : List TakeSpan} (h : m.Counted l) (hp : l'.Perm l) : m.Counted l' := by
  obtain ⟨hfit, hlen, hrefs⟩ := h
  exact ⟨fun x hx => hfit x (hp.mem_iff.1 hx), hlen, fun g hg => (hrefs g hg).trans ((hp.flatMap_right _).count_eq g).symm⟩

/-- R64, R65: spans come and go, and the counts move with them. -/
theorem Counted.moveCounts {old rest : List TakeSpan} (h : m.Counted (old ++ rest)) {new : List TakeSpan}
    (hnew : ∀ x ∈ new, m.Fits x) :
    ((m.raise (new.flatMap m.spanGroups)).lower (old.flatMap m.spanGroups)).Counted (new ++ rest) := by
  obtain ⟨hfit, hlen, hrefs⟩ := h
  have htakes : ((m.raise (new.flatMap m.spanGroups)).lower (old.flatMap m.spanGroups)).takes = m.takes := by simp
  have hgroups : ((m.raise (new.flatMap m.spanGroups)).lower (old.flatMap m.spanGroups)).spanGroups = m.spanGroups := by
    funext x
    simp only [spanGroups, touched, entry, htakes]
  refine ⟨fun x hx => ?_, by rw [lower_length, raise_length, hlen], fun g hg => ?_⟩
  · have hx' : m.Fits x := (List.mem_append.1 hx).elim (hnew x) fun hr => hfit x (List.mem_append_right _ hr)
    unfold Fits
    rw [htakes]
    exact hx'
  · rw [group_raise_lower _ _ _ (hlen ▸ hg), hgroups]
    have hg' := hrefs g hg
    simp only [List.flatMap_append, List.count_append] at hg' ⊢
    omega

/-- Take memory changes, but not for the spans: each finds its take as it was, and a count changes for a group alone that no take
owns, to 0. -/
theorem Counted.congr (h : m.Counted l) (hlen : m'.groups.length = m.groups.length)
    (hrefs : ∀ g, g < 32768 → (m'.group g).refs = (m.group g).refs ∨ (m'.group g).refs = 0 ∧ g ∉ ownedGroups m.takes)
    (htakes : ∀ x ∈ l, ∀ t, Tab.look m.takes x.take = some t → x.FitsTake t →
      ∃ t', Tab.look m'.takes x.take = some t' ∧ x.Alike t t') : m'.Counted l := by
  obtain ⟨hfit, hlen', hcount⟩ := h
  have hgroups : ∀ x ∈ l, m'.spanGroups x = m.spanGroups x := by
    intro x hx
    obtain ⟨-, t, ht, hxt⟩ := hfit x hx
    obtain ⟨t', ht', -, -, -, hgs⟩ := htakes x hx t ht hxt
    exact List.filterMap_congr fun i hi => by simp only [entry, ht, ht', hgs i hi]
  refine ⟨fun x hx => ?_, hlen.trans hlen', fun g hg => ?_⟩
  · obtain ⟨hr, t, ht, hxt⟩ := hfit x hx
    obtain ⟨t', ht', ha⟩ := htakes x hx t ht hxt
    exact ⟨hr, t', ht', hxt.alike ha⟩
  · rw [List.flatMap_congr hgroups]
    rcases hrefs g hg with he | ⟨he, hfree⟩
    · exact he.trans (hcount g hg)
    · rw [he, List.count_eq_zero.2 fun hm => ?_]
      obtain ⟨x, -, hx⟩ := List.mem_flatMap.1 hm
      exact hfree (owned_of_mem_spanGroups hx)

/-- The takes that are not RECORDING stay as they are. -/
theorem Counted.keepIdle (h : m.Counted l) (hlen : m'.groups.length = m.groups.length)
    (hrefs : ∀ g, g < 32768 → (m'.group g).refs = (m.group g).refs ∨ (m'.group g).refs = 0 ∧ g ∉ ownedGroups m.takes)
    (htakes : ∀ id t, Tab.look m.takes id = some t → t.state ≠ .recording → Tab.look m'.takes id = some t) : m'.Counted l :=
  h.congr hlen hrefs fun _ _ t ht hx => ⟨t, htakes _ t ht hx.idle, rfl, hx.idle, rfl, fun _ _ => rfl⟩

end TakeMemory

end Sys2Proof.Machine
end


section
/-! SUPPORT. R64: what each operation of take memory does to the counts and to the spans: it leaves both, but for a group that a take
draws, whose count starts at 0. -/

namespace Sys2Proof.Machine

namespace TakeMemory

variable {m : TakeMemory}

/-! ### Counts -/

theorem setGroup_refs (m : TakeMemory) {g : Nat} {r : Group} (hr : r.refs = (m.group g).refs) (x : Nat) :
    ((m.setGroup g r).group x).refs = (m.group x).refs := by
  rw [group_setGroup]
  split
  · next h => rw [h.1, hr]
  · rfl

theorem release_refs (m : TakeMemory) (g x : Nat) : ((m.release g).group x).refs = (m.group x).refs := by
  unfold release
  split
  · exact m.setGroup_refs (r := { m.group g with state := .bad, owner := none, index := none, faulted := false }) rfl x
  · exact m.setGroup_refs (r := { m.group g with state := .dirty, owner := none, index := none }) rfl x

theorem releaseAll_refs (m : TakeMemory) (gs : List Nat) (x : Nat) : ((m.releaseAll gs).group x).refs = (m.group x).refs :=
  foldl_unchanged (f := fun m : TakeMemory => (m.group x).refs) (fun m g => m.release_refs g x) gs m

/-- R43: the count of a drawn group is 0, and no take owned it. -/
theorem drawTo_refs (hg : m.Grouped) {g : Nat} {rest : List Nat} (hc : m.clean = g :: rest) (take index x : Nat) :
    ((m.drawTo g take index).group x).refs = (m.group x).refs ∨
      ((m.drawTo g take index).group x).refs = 0 ∧ x ∉ ownedGroups m.takes := by
  have hx : (m.drawTo g take index).group x = (m.setGroup g ⟨.owned, some take, some index, 0, false⟩).group x := rfl
  rw [hx, group_setGroup]
  split
  · next h =>
    obtain ⟨rfl, -⟩ := h
    refine .inr ⟨rfl, fun ho => ?_⟩
    obtain ⟨id, i, ho⟩ := mem_ownedGroups.1 ho
    have hclean : (x, Place.clean) ∈ m.placed := mem_placed.2 (hc ▸ List.mem_cons_self ..)
    cases hg.placed_inj hclean (mem_placed.2 ho : (x, Place.owned id i) ∈ m.placed)
  · exact .inl rfl

/-! ### The judgement of R70 -/

theorem Grouped.owned_lt (h : m.Grouped) {g : Nat} (hg : g ∈ ownedGroups m.takes) : g < 32768 :=
  List.mem_range.1 (h.2.mem_iff.1 (List.mem_append_right _ hg))

theorem judge_discarded {t : Take} {i : Nat} : m.judge t i = .discarded ↔
    ∃ g, t.groups[i]? = some (some g) ∧ (m.group g).refs = 0 ∧ t.isCurrent i = false := by
  unfold judge
  split
  · next h => simp [← Option.join_eq_some_iff, h]
  · next g h =>
    simp only [← Option.join_eq_some_iff, h, Option.some.injEq, exists_eq_left']
    split
    · next hr => simp [hr.ne']
    · next hr => cases t.isCurrent i <;> simp [Nat.eq_zero_of_not_pos hr]

theorem discardAt_absent {take i : Nat} (ht : Tab.look m.takes take = none) : discardAt take m i = m := by
  rw [discardAt, ht]

section
variable {take i : Nat} {t : Take} (ht : Tab.look m.takes take = some t)
include ht

theorem discardAt_kept (hj : m.judge t i ≠ .discarded) : discardAt take m i = m := by
  rw [discardAt, ht]
  dsimp only
  split
  · next h _ => exact absurd h hj
  · rfl

theorem discardAt_discarded {g : Nat} (hj : m.judge t i = .discarded) (hi : t.groups[i]? = some (some g)) :
    discardAt take m i = (m.release g).setTake take { t with groups := t.groups.set i none } := by
  rw [discardAt, ht]
  simp only [hj, hi, Option.join_some]

end

/-- R71: a discard is its run, after which a take that is not RECORDING leaves the table if it owns no group. -/
theorem commitDiscard_cases (s : State) (p : Port) (take first last : Nat) :
    (s.commitDiscard p take first last).takeMem = s.takeMem.discardRun take first last ∨
      ∃ t, Tab.look (s.takeMem.discardRun take first last).takes take = some t ∧ t.state ≠ .recording ∧ t.owned = [] ∧
        (s.commitDiscard p take first last).takeMem = { s.takeMem.discardRun take first last with
          takes := Tab.drop (s.takeMem.discardRun take first last).takes take } := by
  unfold State.commitDiscard
  dsimp only
  split
  · next he =>
    right
    simp only [State.setSequence_takeMem, State.setTakeMem_takeMem] at he
    unfold emptied at he
    split at he
    · cases he
    · next t ht =>
      obtain ⟨hst, hnone⟩ := Bool.and_eq_true_iff.1 he
      exact ⟨t, ht, of_decide_eq_true hst, List.isEmpty_iff.1 hnone, rfl⟩
  · exact .inl rfl

/-! ### Operations -/

namespace Counted

variable {l : List TakeSpan}

/-- R64: a group that a span touches has a count. -/
theorem not_touched (h : m.Counted l) (hg : m.Grouped) {g : Nat} (hz : (m.group g).refs = 0) {x : TakeSpan} (hx : x ∈ l) :
    g ∉ m.spanGroups x := by
  intro hm
  obtain ⟨-, -, hcount⟩ := h
  rw [hcount g (hg.owned_lt (owned_of_mem_spanGroups hm))] at hz
  exact List.count_eq_zero.1 hz (List.mem_flatMap_of_mem hx hm)

/-- A record of a group changes, and not in its count. -/
theorem setGroup (h : m.Counted l) {g : Nat} {r : Group} (hr : r.refs = (m.group g).refs) : (m.setGroup g r).Counted l :=
  h.keepIdle (length_setGroup ..) (fun x _ => .inl (m.setGroup_refs hr x)) fun _ _ ht _ => ht

/-- What the group map and the take table do not show does not matter. -/
theorem rest {m' : TakeMemory} (h : m.Counted l) (hg : m'.groups = m.groups) (ht : m'.takes = m.takes) : m'.Counted l := by
  have hgroup : ∀ x, m'.group x = m.group x := fun x => by rw [group, group, hg]
  exact h.keepIdle (by rw [hg]) (fun x _ => .inl (by rw [hgroup])) fun id t hl _ => by rwa [ht]

theorem eraseStart (h : m.Counted l) : m.eraseStart.Counted l := by
  rcases m.eraseStart_cases with he | ⟨g, rest, -, -, he⟩
  · rwa [he]
  · rw [he]
    exact (h.setGroup (g := g) (r := { m.group g with state := .erasing }) rfl).rest rfl rfl

theorem eraseDone (h : m.Counted l) : m.eraseDone.Counted l := by
  cases he : m.engine with
  | none => rwa [eraseDone_none he]
  | some g =>
    rw [eraseDone_group he]
    exact (h.setGroup (g := g) (r := { m.group g with state := .clean }) rfl).rest rfl rfl

theorem eraseFailed (h : m.Counted l) : m.eraseFailed.Counted l := by
  cases he : m.engine with
  | none => rwa [eraseFailed_none he]
  | some g =>
    rw [eraseFailed_group he]
    exact (h.setGroup (g := g) (r := { m.group g with state := .bad }) rfl).rest rfl rfl

theorem releaseAll (h : m.Counted l) (gs : List Nat) : (m.releaseAll gs).Counted l :=
  h.keepIdle (m.releaseAll_length gs) (fun x _ => .inl (m.releaseAll_refs gs x)) fun _ _ ht _ => by rwa [releaseAll_takes]

/-- No span lies in a RECORDING take. -/
theorem setTake (h : m.Counted l) {id : Nat} {t : Take} (ht : Tab.look m.takes id = some t) (hst : t.state = .recording)
    (t' : Take) : (m.setTake id t').Counted l := by
  refine h.keepIdle rfl (fun _ _ => .inl rfl) fun j u hu hust => ?_
  refine (Tab.look_put_other _ _ fun hj => hust ?_).trans hu
  subst hj
  cases ht.symm.trans hu
  exact hst

/-- A take that no span lies in leaves the table. -/
theorem dropTake (h : m.Counted l) {id : Nat} {t : Take} (ht : Tab.look m.takes id = some t)
    (hst : t.state = .recording ∨ t.owned = []) : Counted { m with takes := Tab.drop m.takes id } l := by
  refine h.congr rfl (fun _ _ => .inl rfl) fun x hx u hu hxu => ?_
  refine ⟨u, (Tab.look_drop_other _ fun hj => ?_).trans hu, rfl, hxu.idle, rfl, fun _ _ => rfl⟩
  rw [hj] at hu
  cases ht.symm.trans hu
  exact hst.elim hxu.idle hxu.owned

theorem startBlock (h : m.Counted l) (hg : m.Grouped) {id : Nat} {t : Take} (ht : Tab.look m.takes id = some t)
    (hst : t.state = .recording) (block : Nat) : (m.startBlock id t block).Counted l := by
  unfold TakeMemory.startBlock drawForBlock
  split
  · next g rest _ hc =>
    have hdraw : (m.drawTo g id t.groups.length).Counted l :=
      h.keepIdle (length_setGroup ..) (fun x _ => drawTo_refs hg hc _ _ x) fun _ _ hl _ => hl
    exact hdraw.setTake ht hst _
  · exact h.setTake ht hst _

theorem blockDone (h : m.Counted l) {id : Nat} {t : Take} (ht : Tab.look m.takes id = some t) (hst : t.state = .recording)
    (block : Nat) (data : List Byte) : (m.blockDone id t block data).Counted l :=
  (h.setTake ht hst { t with blocks := t.blocks + 1, inFlight := none }).rest rfl rfl

/-- R51: the new take is RECORDING, and its number was free. -/
theorem openTake (h : m.Counted l) (hg : m.Grouped) {th id g : Nat} {rest : List Nat} (hid : Tab.look m.takes id = none)
    (hc : m.clean = g :: rest) : (m.open_ th id g).Counted l := by
  refine h.keepIdle (length_setGroup ..) (fun x _ => drawTo_refs hg hc _ _ x) fun j u hu _ => ?_
  refine (Tab.look_put_other _ _ fun hj => ?_).trans hu
  subst hj
  cases hid.symm.trans hu

theorem blockFailed {s : State} (h : s.takeMem.Counted l) {take : Nat} {t : Take} (ht : Tab.look s.takeMem.takes take = some t)
    (hst : t.state = .recording) (block g : Nat) : (s.blockFailed take t block g).takeMem.Counted l := by
  have hmark : (s.takeMem.setGroup g { s.takeMem.group g with faulted := true }).Counted l := h.setGroup rfl
  have hleft : ∀ gs, Tab.look ((s.takeMem.setGroup g { s.takeMem.group g with faulted := true }).releaseAll gs).takes take =
      some t := fun gs => by rwa [releaseAll_takes]
  unfold State.blockFailed
  dsimp only
  split
  · exact (hmark.releaseAll t.owned).dropTake (hleft _) (.inl hst)
  · split
    · exact (hmark.releaseAll [g]).setTake (hleft _) hst { t.faultedTake with groups := t.groups.dropLast }
    · exact hmark.setTake ht hst t.faultedTake

/-- R191: a device reset ends the programs. -/
theorem abandon (h : m.Counted l) :
    Counted { m with takes := m.takes.map (fun e => (e.1, { e.2 with inFlight := none })) } l := by
  refine h.congr rfl (fun _ _ => .inl rfl) fun x _ t ht hx =>
    ⟨{ t with inFlight := none }, ?_, rfl, hx.idle, rfl, fun _ _ => rfl⟩
  refine (Tab.look_map m.takes (fun _ t => { t with inFlight := none }) x.take).trans ?_
  rw [ht, Option.map_some]

/-- R16 to R18: the title's spans go, with their counts, and then its takes, which nothing touches any more. -/
theorem retire {s : State} {th : Nat} {t : Title} (h : (s.takeMem.lower (s.titleGroups th t)).Counted l)
    (hth : ∀ x ∈ l, x.title ≠ th) (hw : Tab.wf s.takeMem.takes = true) : (s.retire th t).takeMem.Counted l := by
  have hout : (s.retire th t).takeMem = { (s.takeMem.lower (s.titleGroups th t)).releaseAll (s.titleOwned th) with
      takes := s.takeMem.takes.filter (fun e => decide (e.2.title ≠ th)) } := by
    rw [← State.retire_takes hw th t, State.retire_eq]
  rw [hout]
  refine (h.releaseAll (s.titleOwned th)).congr rfl (fun _ _ => .inl rfl) fun x hx u hu hxu =>
    ⟨u, ?_, rfl, hxu.idle, rfl, fun _ _ => rfl⟩
  rw [releaseAll_takes, lower_takes] at hu
  refine Tab.look_of_mem (Tab.wf_filter _ hw) (List.mem_filter.2 ⟨Tab.mem_of_look hu, decide_eq_true ?_⟩)
  exact hxu.ofTitle ▸ hth x hx

/-- R70: a group that a span touches has a count, so that it is not discarded. -/
theorem discardAt (h : m.Counted l) (hg : m.Grouped) (take i : Nat) : (TakeMemory.discardAt take m i).Counted l := by
  cases ht : Tab.look m.takes take with
  | none => rwa [discardAt_absent ht]
  | some t =>
    by_cases hj : m.judge t i = .discarded
    · obtain ⟨g, hi, hzero, -⟩ := judge_discarded.1 hj
      rw [discardAt_discarded ht hj hi]
      refine (h.releaseAll [g]).congr rfl (fun _ _ => .inl rfl) fun x hx u hu hxu => ?_
      rw [releaseAll_takes] at hu
      by_cases hxt : x.take = take
      · subst hxt
        cases ht.symm.trans hu
        refine ⟨_, Tab.look_put_same .., rfl, hxu.idle, rfl, fun k hk => List.getElem?_set_ne fun hik => ?_⟩
        subst hik
        exact h.not_touched hg hzero hx ((mem_touched ht).2 ⟨i, hk, hi⟩)
      · refine ⟨u, (Tab.look_put_other _ _ hxt).trans ?_, rfl, hxu.idle, rfl, fun _ _ => rfl⟩
        rwa [release_takes]
    · rwa [discardAt_kept ht hj]

/-- R70, R71: the take leaves the table only where it owns no group any more. -/
theorem commitDiscard {s : State} (h : s.takeMem.Counted l) (hg : s.takeMem.Grouped) (p : Port) (take first last : Nat) :
    (s.commitDiscard p take first last).takeMem.Counted l := by
  have hrun : (s.takeMem.discardRun take first last).Grouped ∧ (s.takeMem.discardRun take first last).Counted l :=
    foldl_keeps (P := fun m : TakeMemory => m.Grouped ∧ m.Counted l)
      (fun _ i hm => ⟨groupedKeep.discardAt take hm.1 i, hm.2.discardAt hm.1 take i⟩) _ ⟨hg, h⟩
  rcases commitDiscard_cases s p take first last with he | ⟨t, ht, -, hnone, he⟩
  · exact he ▸ hrun.2
  · exact he ▸ hrun.2.dropTake ht (.inr hnone)

end Counted

end TakeMemory

end Sys2Proof.Machine
end


section
/-! SUPPORT. R64: what leaves the segments, the titles and the operations of the ports as they are. -/

namespace Sys2Proof.Machine

/-! ### Tables whose records change in what is not looked at -/

section
variable {α β : Type} {t : Tab α}

/-- The canonical form is about the numbers alone. -/
theorem Tab.wf_map_eq {f : Nat × α → Nat × β} (hf : ∀ e, (f e).1 = e.1) (t : Tab α) : Tab.wf (t.map f) = Tab.wf t := by
  induction t with
  | nil => rfl
  | cons e t ih =>
    cases t with
    | nil => rfl
    | cons d t =>
      change (decide ((f e).1 < (f d).1) && Tab.wf (f d :: t.map f)) = (decide (e.1 < d.1) && Tab.wf (d :: t))
      rw [hf, hf]
      exact congrArg (decide (e.1 < d.1) && ·) ih

/-- A record is replaced by one that looks the same. -/
theorem Tab.map_put (hw : Tab.wf t = true) {k : Nat} {v v' : α} (h : Tab.look t k = some v) {f : Nat × α → β}
    (hf : f (k, v') = f (k, v)) : (Tab.put t k v').map f = t.map f := by
  induction t with
  | nil => cases h
  | cons e t ih =>
    obtain ⟨j, w⟩ := e
    obtain ⟨ht, ha⟩ := Tab.wf_cons hw
    unfold Tab.look at h
    unfold Tab.put
    split at h
    · next hjk =>
      cases h
      rw [if_neg (by omega), if_pos hjk, List.map_cons, List.map_cons, hf, hjk]
    · next hjk =>
      have hlt : j < k := ha _ (Tab.mem_of_look h)
      rw [if_neg (by omega), if_neg hjk, List.map_cons, List.map_cons, ih ht h]

theorem Tab.map_change (hw : Tab.wf t = true) (k : Nat) {g : α → α} {f : Nat × α → β} (hf : ∀ v, f (k, g v) = f (k, v)) :
    (Tab.change t k g).map f = t.map f := by
  unfold Tab.change
  split
  · rfl
  · next h => exact Tab.map_put hw h (hf _)

end

/-- R2: a title that a request resolves is a record of the title table. -/
theorem State.title_look {s : State} {th : Nat} {t : Title} (h : s.title? th = some t) : Tab.look s.titles th = some t := by
  rwa [State.title?, if_pos (State.title_handle h)] at h

/-! ### The same spans -/

/-- `t` has the segments, the titles and the operations of `s`. -/
structure State.SameSpans (s t : State) : Prop where
  chapters  : t.chapters.map segmentsOf = s.chapters.map segmentsOf
  titles    : t.titles = s.titles
  operation : ∀ p, (t.port p).operation = (s.port p).operation

theorem Ports.notify_operation (q : Ports) (f : NoticeLists → NoticeLists) (p : Port) :
    ((q.notify f).get p).operation = (q.get p).operation := by rw [Ports.get_notify]

theorem State.changePort_operation (s : State) (p q : Port) {f : PortRecord → PortRecord}
    (hf : ∀ r, (f r).operation = r.operation) : ((s.changePort p f).port q).operation = (s.port q).operation := by
  by_cases hq : q = p
  · subst hq
    rw [State.port_changePort_same, hf]
  · rw [State.port_changePort_other _ _ hq]

namespace State.SameSpans

variable {s t u : State}

theorem refl (s : State) : State.SameSpans s s := ⟨rfl, rfl, fun _ => rfl⟩

theorem trans (h : State.SameSpans s t) (h' : State.SameSpans t u) : State.SameSpans s u :=
  ⟨h'.chapters.trans h.chapters, h'.titles.trans h.titles, fun p => (h'.operation p).trans (h.operation p)⟩

theorem spans (h : State.SameSpans s t) : t.spans = s.spans := by rw [State.spans, State.spans, h.chapters, h.titles]

theorem wf_chapters (h : State.SameSpans s t) (hw : Tab.wf s.chapters = true) : Tab.wf t.chapters = true := by
  rwa [← Tab.wf_map_eq (f := segmentsOf) (fun _ => rfl), h.chapters, Tab.wf_map_eq (f := segmentsOf) fun _ => rfl]

/-- One port changes, and not in its operation. -/
theorem changePort (s : State) (p : Port) {f : PortRecord → PortRecord} (hf : ∀ r, (f r).operation = r.operation) :
    State.SameSpans s (s.changePort p f) := ⟨rfl, rfl, fun q => s.changePort_operation p q hf⟩

/-- Notice lists change. -/
theorem notify (hc : t.chapters = s.chapters) (ht : t.titles = s.titles) {f : NoticeLists → NoticeLists}
    (hp : t.ports = s.ports.notify f) : State.SameSpans s t :=
  ⟨by rw [hc], ht, fun p => by rw [State.port, hp, Ports.notify_operation]; rfl⟩

/-! How renders and holds end. -/

theorem endLane (s : State) (i : Fin 4) (mark : Render → LastEnd) : State.SameSpans s (s.endLane i mark) := by
  unfold State.endLane
  split
  · exact refl s
  · exact .notify rfl rfl rfl

theorem endRender (s : State) (c : ChapterId) (way : EndWay) : State.SameSpans s (s.endRender c way) := by
  unfold State.endRender
  split
  · exact refl s
  · exact endLane ..

theorem unqueue (s : State) (c : ChapterId) (k : Chapter) (way : EndWay) : State.SameSpans s (s.unqueue c k way) := by
  unfold State.unqueue
  dsimp only
  split
  · split
    · exact ⟨rfl, rfl, fun _ => rfl⟩
    · have he := endRender s c way
      exact ⟨he.chapters, he.titles, he.operation⟩
  · exact refl s

section
variable (hw : Tab.wf s.chapters = true)
include hw

/-- One chapter changes, and not in its segments. -/
theorem changeChapter (c : ChapterId) {f : Chapter → Chapter} (hf : ∀ k, (f k).segments = k.segments) :
    State.SameSpans s (s.changeChapter c f) :=
  ⟨Tab.map_change hw _ fun k => by simp only [segmentsOf, hf], rfl, fun _ => rfl⟩

theorem setChapter {c : ChapterId} {k k' : Chapter} (hk : s.chapter? c = some k) (hs : k'.segments = k.segments) :
    State.SameSpans s (s.setChapter c k') :=
  ⟨Tab.map_put hw hk (by simp only [segmentsOf, hs]), rfl, fun _ => rfl⟩

theorem failRender (i : Fin 4) (cause : FailCause) (group position : Option Nat) :
    State.SameSpans s (s.failRender i cause group position) := by
  unfold State.failRender
  split
  · exact refl s
  · next r _ =>
    have he := endLane s i (Render.failedEnd cause group position)
    have hc := changeChapter (he.wf_chapters hw) r.chapter (f := fun k => { k with state := .failed }) fun _ => rfl
    refine he.trans ⟨hc.chapters, rfl, fun p => ?_⟩
    exact Ports.notify_operation ..

theorem commit (i : Fin 4) : State.SameSpans s (s.commit i) := by
  unfold State.commit
  split
  · exact refl s
  · next r _ =>
    exact ⟨Tab.map_change hw _ fun _ => rfl, rfl, fun p => Ports.notify_operation ..⟩

theorem endHold (slot : Nat) : State.SameSpans s (s.endHold slot) := by
  rcases endHold_cases s slot with he | he | ⟨i, r, -, -, he⟩
  · rw [he]; exact refl s
  · rw [he]; exact ⟨rfl, rfl, fun _ => rfl⟩
  · have hc := commit (s := s.withoutHold slot) hw i
    rw [he]
    exact ⟨hc.chapters, hc.titles, hc.operation⟩

theorem endHolds (slots : List Nat) : State.SameSpans s (slots.foldl State.endHold s) :=
  foldl_keeps (P := State.SameSpans s) (fun _ slot h => h.trans (endHold (h.wf_chapters hw) slot)) slots (refl s)

theorem resetPort (p : Port) : State.SameSpans s (s.resetPort p) :=
  trans (changePort s p (f := fun r => { r with lists := .empty, mask := .empty, sequence := .none }) fun _ => rfl)
    (endHolds (s := s.changePort p _) hw _)

theorem expireHold : State.SameSpans s s.expireHold := by
  unfold State.expireHold
  split
  · exact refl s
  · refine State.SameSpans.trans ?_ (endHold ?_ _)
    · exact changePort s _ fun _ => rfl
    · exact hw

/-! What requests do. -/

theorem cancel {c : ChapterId} {k : Chapter} (hk : s.chapter? c = some k) : State.SameSpans s (s.cancel c k) := by
  have hu := unqueue s c k .cancelled
  refine hu.trans (setChapter (hu.wf_chapters hw) (k := k) ?_ rfl)
  rwa [State.chapter?, State.unqueue_chapters]

theorem enqueue {c : ChapterId} {k : Chapter} (hk : s.chapter? c = some k) (q : Priority) :
    State.SameSpans s (s.enqueue c k q) :=
  have hc := setChapter hw hk (k' := { k with priority := q, state := .queued }) rfl
  ⟨hc.chapters, rfl, fun _ => rfl⟩

omit hw in
theorem markStale (s : State) (th : Nat) : State.SameSpans s (s.markStale th) := by
  refine ⟨?_, rfl, fun _ => rfl⟩
  rw [State.markStale, List.map_map]
  refine List.map_congr_left fun e _ => ?_
  simp only [Function.comp]
  split <;> rfl

/-! Dispatch, and the slots of the wheel. -/

theorem dispatchTo (i : Fin 4) (c : ChapterId) (origin : Priority) (q : RenderQueue) :
    State.SameSpans s (s.dispatchTo i c origin q) := by
  unfold State.dispatchTo
  split
  · next k _ hk =>
    have hc := setChapter hw hk (k' := { k with state := .measuring }) rfl
    exact ⟨hc.chapters, rfl, fun _ => rfl⟩
  · exact refl s

theorem dispatchOne : State.SameSpans s s.dispatchOne := by
  unfold State.dispatchOne
  split
  · exact refl s
  · split
    · exact dispatchTo hw ..
    · exact dispatchTo hw ..
    · exact refl s

theorem measured (i : Fin 4) (r : Render) (held : Option HeldBlock) (m : Meter) : State.SameSpans s (s.measured i r held m) := by
  unfold State.measured
  split
  · have hc := changeChapter hw r.chapter (f := fun k => { k with state := .encoding }) fun _ => rfl
    exact ⟨hc.chapters, rfl, fun _ => rfl⟩
  · exact ⟨rfl, rfl, fun _ => rfl⟩

theorem askCommit (i : Fin 4) (r : Render) (gain : GainRecord) (saturated : Nat) (es : List Encoder) :
    State.SameSpans s (s.askCommit i r gain saturated es) := by
  unfold State.askCommit
  split
  · have hc := changeChapter hw r.chapter (f := fun k => { k with state := .commitWait }) fun _ => rfl
    exact ⟨hc.chapters, rfl, fun _ => rfl⟩
  · have hc := commit (s := s.setRender i { r with
      pass := r.pass + 1, stage := .encode { cursor := r.timeline.length, held := none } gain saturated es }) hw i
    exact ⟨hc.chapters, hc.titles, hc.operation⟩

theorem takeFrame (i : Fin 4) (r : Render) (held : Option HeldBlock) (gain : GainRecord) (saturated : Nat)
    (es : List Encoder) (pool : List Nat) (voiced : Bool) (ys : List Int) :
    State.SameSpans s (s.takeFrame i r held gain saturated es pool voiced ys) := by
  unfold State.takeFrame State.endEncode
  dsimp only
  split
  · refine State.SameSpans.trans ?_ (askCommit ?_ ..)
    · exact ⟨rfl, rfl, fun p => (Ports.notify_operation ..).trans (Ports.notify_operation ..)⟩
    · exact hw
  · exact .notify rfl rfl rfl

theorem encoded (i : Fin 4) (r : Render) (a : Assembly) (held : Option HeldBlock) (gain : GainRecord)
    (saturated : Nat) (es : List Encoder) (xs : List Int) : State.SameSpans s (s.encoded i r a held gain saturated es xs) := by
  unfold State.encoded
  dsimp only
  split
  · exact takeFrame hw ..
  · refine State.SameSpans.trans ?_ (failRender ?_ ..)
    · exact ⟨rfl, rfl, fun _ => rfl⟩
    · exact hw

theorem progress {i : Fin 4} {r : Render} {f : Option Nat} (ht : s.progress i r f = some t) : State.SameSpans s t := by
  have hread : ∀ g, State.SameSpans s (s.failRead i r g) := fun g =>
    have hf := failRender (s := { s with takeMem := s.takeMem.markFaulted g }) hw i .takeFault (some g) (some r.pass)
    ⟨hf.chapters, hf.titles, hf.operation⟩
  unfold State.progress at ht
  split at ht
  · split at ht
    · cases ht
    · cases ht; exact hread _
    · cases ht; exact measured hw ..
  · split at ht
    · cases ht
    · cases ht; exact hread _
    · cases ht; exact encoded hw ..
  · cases ht; exact refl s

theorem grantSlot {f : Option Nat} (ht : s.grantSlot f = some t) : State.SameSpans s t := by
  unfold State.grantSlot at ht
  split at ht
  · cases ht; exact refl s
  · split at ht
    · cases ht; exact refl s
    · split at ht
      · exact progress hw ht
      · cases ht; exact refl s

end

end State.SameSpans

end Sys2Proof.Machine
end


section
/-! SUPPORT. R18, R49, R64: the programs in flight, and what each request does to them and to the spans. -/

namespace Sys2Proof.Machine

/-! ### Programs in flight -/

/-- R49: a RECORDING take whose program in flight is that of a block. -/
def TakeMemory.Running (m : TakeMemory) (take block : Nat) : Prop :=
  ∃ t, Tab.look m.takes take = some t ∧ t.state = .recording ∧ t.inFlight = some block

/-- Operations go on or end, and those that go on have their takes as before. -/
theorem State.ProgramLaw.keep {s t : State} (h : s.ProgramLaw)
    (hop : ∀ p o, (t.port p).operation = some o → (s.port p).operation = some o)
    (hrun : ∀ p o take block data, (t.port p).operation = some o → o.work = .program take block data →
      s.takeMem.Running take block → t.takeMem.Running take block) : t.ProgramLaw := by
  obtain ⟨hruns, hone⟩ := h
  exact ⟨fun p o take block data ho hw => hrun p o take block data ho hw (hruns p o take block data (hop p o ho) hw),
    fun p q o u take b b' d d' ho hu => hone p q o u take b b' d d' (hop p o ho) (hop q u hu)⟩

namespace TakeMemory.Running

variable {m m' : TakeMemory} {take block : Nat}

theorem congr (h : m.Running take block) (ht : m'.takes = m.takes) : m'.Running take block := by
  unfold TakeMemory.Running
  rwa [ht]

/-- Another take is stored. -/
theorem setTake (h : m.Running take block) {id : Nat} (hid : take ≠ id) (t : Take) : (m.setTake id t).Running take block := by
  obtain ⟨u, hu, hst, hb⟩ := h
  exact ⟨u, (Tab.look_put_other _ _ hid).trans hu, hst, hb⟩

theorem dropTake (h : m.Running take block) {id : Nat} (hid : take ≠ id) :
    TakeMemory.Running { m with takes := Tab.drop m.takes id } take block := by
  obtain ⟨u, hu, hst, hb⟩ := h
  exact ⟨u, (Tab.look_drop_other _ hid).trans hu, hst, hb⟩

/-- A take without that program is another one. -/
theorem ne_of_look (h : m.Running take block) {id : Nat} {t : Take} (ht : Tab.look m.takes id = some t)
    (hn : t.state ≠ .recording ∨ t.inFlight = none) : take ≠ id := by
  obtain ⟨u, hu, hst, hb⟩ := h
  rintro rfl
  cases ht.symm.trans hu
  rcases hn with hn | hn
  · exact hn hst
  · cases hn.symm.trans hb

theorem ne_of_absent (h : m.Running take block) {id : Nat} (ht : Tab.look m.takes id = none) : take ≠ id := by
  obtain ⟨u, hu, -⟩ := h
  rintro rfl
  cases ht.symm.trans hu

theorem startBlock (h : m.Running take block) {id : Nat} (hid : take ≠ id) (t : Take) (b : Nat) :
    (m.startBlock id t b).Running take block := by
  unfold TakeMemory.startBlock
  refine setTake (h.congr ?_) hid _
  unfold drawForBlock
  split <;> rfl

/-- R70: a discard leaves the takes in their states. -/
theorem discardAt (h : m.Running take block) (id i : Nat) : (TakeMemory.discardAt id m i).Running take block := by
  cases ht : Tab.look m.takes id with
  | none => rwa [discardAt_absent ht]
  | some t =>
    by_cases hj : m.judge t i = .discarded
    · obtain ⟨g, hi, -⟩ := judge_discarded.1 hj
      rw [discardAt_discarded ht hj hi]
      by_cases hid : take = id
      · obtain ⟨u, hu, hst, hb⟩ := h
        subst hid
        cases ht.symm.trans hu
        exact ⟨_, Tab.look_put_same .., hst, hb⟩
      · exact (h.congr (release_takes ..)).setTake hid _
    · rwa [discardAt_kept ht hj]

theorem commitDiscard {s : State} (h : s.takeMem.Running take block) (p : Port) (id first last : Nat) :
    (s.commitDiscard p id first last).takeMem.Running take block := by
  have hrun : (s.takeMem.discardRun id first last).Running take block :=
    foldl_keeps (P := fun m : TakeMemory => m.Running take block) (fun _ i hm => hm.discardAt id i) _ h
  rcases commitDiscard_cases s p id first last with he | ⟨t, ht, hst, -, he⟩
  · exact he ▸ hrun
  · exact he ▸ hrun.dropTake (hrun.ne_of_look ht (.inl hst))

/-- R15: a title with a RECORDING take is not retired. -/
theorem retire {s : State} (h : s.takeMem.Running take block) (hw : Tab.wf s.takeMem.takes = true) {th : Nat}
    (hr : s.titleRecording th = false) (t : Title) : (s.retire th t).takeMem.Running take block := by
  obtain ⟨u, hu, hst, hb⟩ := h
  refine ⟨u, ?_, hst, hb⟩
  rw [State.retire_takes hw]
  refine Tab.look_of_mem (Tab.wf_filter _ hw) (List.mem_filter.2 ⟨Tab.mem_of_look hu, decide_eq_true fun hth => ?_⟩)
  refine List.any_eq_false.1 hr (take, u) (List.mem_filter.2 ⟨Tab.mem_of_look hu, decide_eq_true hth⟩) ?_
  exact decide_eq_true hst

/-- R57: a failed program is about its own take. -/
theorem blockFailed {s : State} (h : s.takeMem.Running take block) {id : Nat} (hid : take ≠ id) (t : Take) (b g : Nat) :
    (s.blockFailed id t b g).takeMem.Running take block := by
  unfold State.blockFailed
  dsimp only
  split
  · exact dropTake (h.congr (by simp [TakeMemory.setGroup])) hid
  · split
    · exact setTake (h.congr (by simp [TakeMemory.setGroup])) hid _
    · exact setTake (m := s.takeMem.setGroup g { s.takeMem.group g with faulted := true }) h hid _

/-- What a request leaves of a program in flight: a WRITE-BLOCK or a CLOSE-TAKE of its take is refused. -/
theorem change {p : Port} {s t : State} (hc : Change p s t) (hw : Tab.wf s.takeMem.takes = true)
    (h : s.takeMem.Running take block) : t.takeMem.Running take block := by
  cases hc with
  | tone th t r => exact h.congr (by simp [State.moveTone])
  | retired th t _ _ hr => exact h.retire hw hr t
  | deleted th index t k => exact h.congr (by simp [State.eraseChapter])
  | edited th index t k k' up dn => exact h.congr (by simp)
  | cancelled th index t k => exact h.congr (by simp [State.cancel])
  | closed slot => exact h.congr (by simp)
  | portReset => exact h.congr (by simp)
  | takeOpened th id g rest hf =>
    exact TakeMemory.Running.setTake (m := s.takeMem.drawTo g id 0) h (h.ne_of_absent (by simpa using List.find?_some hf)) _
  | writing id t ht _ _ hn => exact h.startBlock (h.ne_of_look ht (.inr hn)) t _
  | takeFreed id t ht _ hn => exact (h.congr (by simp)).dropTake (h.ne_of_look ht (.inr hn))
  | takeClosed id tail t ht _ hn => exact h.setTake (h.ne_of_look ht (.inr hn)) _
  | discarded id first last => exact h.commitDiscard p id first last
  | _ => exact h

end TakeMemory.Running

/-! ### The operations of the ports -/

theorem Ports.dropMarks_operation (q : Ports) (id : Nat) (p : Port) : ((q.dropMarks id).get p).operation = (q.get p).operation := by
  rw [Ports.get_dropMarks]

theorem State.blockFailed_operation (s : State) (take : Nat) (t : Take) (block g : Nat) (p : Port) :
    ((s.blockFailed take t block g).port p).operation = (s.port p).operation := by
  unfold State.blockFailed
  dsimp only
  split
  · exact Ports.dropMarks_operation ..
  · split <;> rfl

theorem State.setSequence_operation (s : State) (p q : Port) (d : DiscardSeq) :
    ((s.setSequence p d).port q).operation = (s.port q).operation := s.changePort_operation p q fun _ => rfl

/-- Requests leave the operations of the ports; the port that sent one starts its operation itself. -/
theorem Change.operation {p : Port} {s t : State} (hc : Change p s t) (hw : Tab.wf s.chapters = true) (q : Port) :
    (t.port q).operation = (s.port q).operation := by
  cases hc with
  | retired th t => rw [State.retire_port]
  | deleted th index t k =>
    exact (Ports.notify_operation ..).trans ((State.SameSpans.unqueue s ⟨th, index⟩ k .deleted).operation q)
  | edited th index t k k' up dn =>
    unfold State.editChapter
    dsimp only
    split
    · exact (State.SameSpans.endRender _ ⟨th, index⟩ .aborted).operation q
    · rfl
  | cancelled th index t k _ _ hk => exact (State.SameSpans.cancel hw hk).operation q
  | closed slot => exact (State.SameSpans.endHold hw slot).operation q
  | popped | masked | sequence => exact s.changePort_operation p q fun _ => rfl
  | portReset => exact (State.SameSpans.resetPort hw p).operation q
  | takeFreed id t => exact Ports.dropMarks_operation ..
  | discarded id first last =>
    unfold State.commitDiscard
    dsimp only
    split
    · exact (Ports.dropMarks_operation ..).trans (State.setSequence_operation _ p q _)
    · exact State.setSequence_operation _ p q _
  | _ => rfl

end Sys2Proof.Machine
end


section
/-! SUPPORT. R64, R65: what each request does to the spans: which come and which go, and that the counts move with them. -/

namespace Sys2Proof.Machine

/-! ### The spans of a chapter, of a title, and of the rest -/

def segmentSpans (t : Tab Chapter) : List TakeSpan := (t.map segmentsOf).flatMap chapterSpans

def roomSpans (t : Tab Title) : List TakeSpan := (t.map toneOf).flatMap toneSpans

theorem State.spans_eq (s : State) : s.spans = segmentSpans s.chapters ++ roomSpans s.titles := rfl

section
variable {t : Tab Chapter} (hw : Tab.wf t = true)
include hw

theorem segmentSpans_perm {n : Nat} {k : Chapter} (h : Tab.look t n = some k) :
    (segmentSpans t).Perm (k.segments.map (.segment (n / 128)) ++ segmentSpans (Tab.drop t n)) :=
  ((Tab.perm_cons_drop hw (Tab.mem_of_look h)).map _).flatMap_right _

theorem segmentSpans_put (n : Nat) (k : Chapter) :
    (segmentSpans (Tab.put t n k)).Perm (k.segments.map (.segment (n / 128)) ++ segmentSpans (Tab.drop t n)) :=
  ((Tab.put_perm n k hw).map _).flatMap_right _

end

section
variable {t : Tab Title} (hw : Tab.wf t = true)
include hw

theorem roomSpans_perm {n : Nat} {k : Title} (h : Tab.look t n = some k) :
    (roomSpans t).Perm (toneSpans (n, k.roomTone) ++ roomSpans (Tab.drop t n)) :=
  ((Tab.perm_cons_drop hw (Tab.mem_of_look h)).map _).flatMap_right _

theorem roomSpans_put (n : Nat) (k : Title) :
    (roomSpans (Tab.put t n k)).Perm (toneSpans (n, k.roomTone) ++ roomSpans (Tab.drop t n)) :=
  ((Tab.put_perm n k hw).map _).flatMap_right _

end

namespace TakeMemory

variable (m : TakeMemory)

theorem spanGroups_segments (th : Nat) (l : List Segment) :
    (l.map (.segment th)).flatMap m.spanGroups = l.flatMap m.segmentGroups := List.flatMap_map ..

theorem spanGroups_tone (th : Nat) (r : Option RoomSpan) : (toneSpans (th, r)).flatMap m.spanGroups = m.toneGroups r := by
  cases r with
  | none => rfl
  | some r => exact List.append_nil _

theorem spanGroups_segmentSpans (t : Tab Chapter) :
    (segmentSpans t).flatMap m.spanGroups = t.flatMap (fun e => e.2.segments.flatMap m.segmentGroups) := by
  rw [segmentSpans, List.flatMap_assoc, List.flatMap_map]
  exact List.flatMap_congr fun e _ => m.spanGroups_segments _ _

end TakeMemory

/-! ### Edits -/

/-- R24, R50: a segment that a take serves fits it. -/
theorem State.serves.fits {s : State} {th : Nat} {g : Segment} (h : s.serves th g) : s.takeMem.Fits (.segment th g) := by
  obtain ⟨t, ht, hst, hr⟩ := h
  obtain ⟨h1, h2, h3, h4, h5, hf⟩ := (segmentInRange_iff ht).1 hr
  obtain ⟨hlook, hth, hid⟩ := State.take_look ht
  exact ⟨hid, t, hlook, ⟨h1, h2, h3, h4, h5⟩, hth, hst, hf⟩

/-- R25 to R28: an edit replaces some segments of the list by others that takes serve. -/
theorem SegmentEdit.split {s : State} {th : Nat} {l l' : List Segment} {up dn : List Nat} (h : SegmentEdit s th l l' up dn) :
    ∃ old new rest : List Segment, l.Perm (old ++ rest) ∧ l'.Perm (new ++ rest) ∧ up = new.flatMap s.takeMem.segmentGroups ∧
      dn = old.flatMap s.takeMem.segmentGroups ∧ ∀ g ∈ new, s.serves th g := by
  have hone : ∀ g, s.takeMem.segmentGroups g = [g].flatMap s.takeMem.segmentGroups := fun g => (List.append_nil _).symm
  have hremoved : ∀ {i : Nat} {old}, l[i]? = some old → l.Perm ([old] ++ l.eraseIdx i) := fun ho => by
    obtain ⟨hi, rfl⟩ := List.getElem?_eq_some_iff.1 ho
    exact (List.getElem_cons_eraseIdx_perm hi).symm
  cases h with
  | kept => exact ⟨[], [], l, .refl _, .refl _, rfl, rfl, fun _ h => nomatch h⟩
  | inserted i g hi _ hg =>
    exact ⟨[], [g], l, .refl _, List.perm_insertIdx g l hi, hone g, rfl, fun x hx => List.mem_singleton.1 hx ▸ hg⟩
  | replaced i g old ho hg =>
    obtain ⟨hi, -⟩ := List.getElem?_eq_some_iff.1 ho
    exact ⟨[old], [g], l.eraseIdx i, hremoved ho, List.set_perm_cons_eraseIdx hi g, hone g, hone old,
      fun x hx => List.mem_singleton.1 hx ▸ hg⟩
  | removed i old ho => exact ⟨[old], [], l.eraseIdx i, hremoved ho, .refl _, rfl, hone old, fun _ h => nomatch h⟩

theorem State.editChapter_titles (s : State) (c : ChapterId) (k : Chapter) : (s.editChapter c k).titles = s.titles := by
  unfold State.editChapter
  dsimp only
  split
  · exact (State.SameSpans.endRender (s.setChapter c k.edited) c .aborted).titles
  · rfl

/-- R29, R30: the segments after a taken edit. -/
theorem State.editChapter_spans (s : State) (c : ChapterId) (k : Chapter) :
    (s.editChapter c k).spans = segmentSpans (Tab.put s.chapters c.key k.edited) ++ roomSpans s.titles := by
  unfold State.editChapter
  dsimp only
  split
  · exact (State.SameSpans.endRender (s.setChapter c k.edited) c .aborted).spans
  · rfl

/-! ### What rests on the references -/

/-- `State.ProgramLaw`, `State.SpanLaw` and `State.CountLaw`. -/
structure State.Accounted (s : State) : Prop where
  programs : s.ProgramLaw
  counted  : s.takeMem.Counted s.spans

/-- With it, the laws that a step rests on: each table has a number once, and each group is in one place. -/
structure State.Ready (s : State) : Prop extends State.Accounted s where
  chapters : Tab.wf s.chapters = true
  titles   : Tab.wf s.titles = true
  grouped  : s.takeMem.Grouped

namespace State.Ready

variable {s t : State}

/-- A title changes, and not in its room tone. -/
theorem spans_setTitle (h : s.Ready) {th : Nat} {t t' : Title} (ht : s.title? th = some t) (hr : t'.roomTone = t.roomTone) :
    (s.setTitle th t').spans = s.spans := by
  rw [State.spans, State.spans, State.setTitle_titles,
    Tab.map_put h.titles (State.title_look ht) (show toneOf (th, t') = toneOf (th, t) by simp only [toneOf, hr])]
  rfl

theorem registered (h : s.Ready) {th : Nat} {t : Title} (hf : s.title? th = none) (hr : 1 ≤ th ∧ th ≤ 4)
    (hn : t.roomTone = none) : s.takeMem.Counted (s.setTitle th t).spans := by
  have hlook : Tab.look s.titles th = none := by rwa [State.title?, if_pos hr] at hf
  refine h.counted.perm (List.Perm.append_left _ ?_)
  have hput := roomSpans_put h.titles th t
  rwa [hn, Tab.drop_of_look_none h.titles hlook] at hput

/-- R9, R10: a room-tone span comes or goes, or both. -/
theorem tone (h : s.Ready) {th : Nat} {t : Title} (ht : s.title? th = some t) {r : Option RoomSpan}
    (hr : ∀ x, r = some x → ∃ k, s.take? th x.take = some k ∧ k.state ≠ .recording ∧
      toneInRange s.takeMem x.take x.start x.length k = true) : (s.moveTone th t r).takeMem.Counted (s.moveTone th t r).spans := by
  have hold : s.spans.Perm (toneSpans (th, t.roomTone) ++ (segmentSpans s.chapters ++ roomSpans (Tab.drop s.titles th))) :=
    ((roomSpans_perm h.titles (State.title_look ht)).append_left _).trans (List.perm_append_comm_assoc ..)
  have hnew : (s.moveTone th t r).spans.Perm
      (toneSpans (th, r) ++ (segmentSpans s.chapters ++ roomSpans (Tab.drop s.titles th))) :=
    ((roomSpans_put h.titles th { t with roomTone := r }).append_left _).trans (List.perm_append_comm_assoc ..)
  have hmove := (h.counted.perm hold.symm).moveCounts (new := toneSpans (th, r)) fun x hx => ?_
  · rw [TakeMemory.spanGroups_tone, TakeMemory.spanGroups_tone] at hmove
    exact hmove.perm hnew
  · cases r with
    | none => cases hx
    | some y =>
      cases List.mem_singleton.1 hx
      obtain ⟨k, hk, hst, hrange⟩ := hr y rfl
      obtain ⟨h1, h2, hfit⟩ := (toneInRange_iff hk).1 hrange
      obtain ⟨hlook, hth, hid⟩ := State.take_look hk
      exact ⟨hid, k, hlook, ⟨h1, h2⟩, hth, hst, hfit⟩

/-- R16 to R18: the spans of the title go, and then its takes. -/
theorem retired (h : s.Ready) {th : Nat} {t : Title} (ht : s.title? th = some t) :
    (s.retire th t).takeMem.Counted (s.retire th t).spans := by
  have hsplit : (segmentSpans s.chapters).Perm
      (segmentSpans (s.titleChapters th) ++ segmentSpans (s.chapters.filter (fun e => decide (e.1 / 128 ≠ th)))) := by
    rw [segmentSpans, segmentSpans, segmentSpans, ← List.flatMap_append, ← List.map_append]
    simp only [decide_not]
    exact ((List.filter_append_perm _ _).symm.map _).flatMap_right _
  have hspans : (s.retire th t).spans =
      segmentSpans (s.chapters.filter (fun e => decide (e.1 / 128 ≠ th))) ++ roomSpans (Tab.drop s.titles th) := by
    rw [State.retire_eq]
    rfl
  have hold : s.spans.Perm ((segmentSpans (s.titleChapters th) ++ toneSpans (th, t.roomTone)) ++ (s.retire th t).spans) := by
    rw [hspans]
    refine (hsplit.append (roomSpans_perm h.titles (State.title_look ht))).trans ?_
    rw [List.append_assoc, List.append_assoc]
    exact (List.perm_append_comm_assoc ..).append_left _
  have hmove := (h.counted.perm hold.symm).moveCounts (new := []) fun _ hx => nomatch hx
  rw [List.flatMap_append, TakeMemory.spanGroups_tone, TakeMemory.spanGroups_segmentSpans] at hmove
  refine TakeMemory.Counted.retire (th := th) hmove (fun x hx => ?_) h.grouped.1
  rw [hspans, List.mem_append] at hx
  rcases hx with hx | hx
  · obtain ⟨e, he, hx⟩ := List.mem_flatMap.1 hx
    obtain ⟨d, hd, rfl⟩ := List.mem_map.1 he
    obtain ⟨g, -, rfl⟩ := List.mem_map.1 hx
    exact of_decide_eq_true (List.mem_filter.1 hd).2
  · obtain ⟨e, he, hx⟩ := List.mem_flatMap.1 hx
    obtain ⟨d, hd, rfl⟩ := List.mem_map.1 he
    obtain ⟨r, -, rfl⟩ := Option.map_eq_some_iff.1 (Option.mem_toList.1 hx)
    exact of_decide_eq_true (List.mem_filter.1 hd).2

/-- The chapter's spans, and those of the rest. -/
theorem spans_perm (h : s.Ready) {c : ChapterId} (hi : c.index ≤ 127) {k : Chapter} (hk : s.chapter? c = some k) :
    s.spans.Perm (k.segments.map (.segment c.title) ++ (segmentSpans (Tab.drop s.chapters c.key) ++ roomSpans s.titles)) := by
  have hp := (segmentSpans_perm h.chapters hk).append_right (roomSpans s.titles)
  rwa [ChapterId.key_title hi, List.append_assoc] at hp

theorem deleted (h : s.Ready) {c : ChapterId} (hi : c.index ≤ 127) {k : Chapter} (hk : s.chapter? c = some k) :
    ((s.unqueue c k .deleted).eraseChapter c k).takeMem.Counted ((s.unqueue c k .deleted).eraseChapter c k).spans := by
  have hspans : ((s.unqueue c k .deleted).eraseChapter c k).spans =
      segmentSpans (Tab.drop s.chapters c.key) ++ roomSpans s.titles := by
    rw [State.spans_eq, State.eraseChapter, State.unqueue_chapters, roomSpans, (State.SameSpans.unqueue s c k .deleted).titles]
    rfl
  have hmove := (h.counted.perm (h.spans_perm hi hk).symm).moveCounts (new := []) fun _ hx => nomatch hx
  rw [TakeMemory.spanGroups_segments, ← hspans] at hmove
  unfold State.eraseChapter at hmove ⊢
  rwa [State.unqueue_takeMem]

/-- R25 to R31: segments come or go, or both. -/
theorem edited (h : s.Ready) {c : ChapterId} (hi : c.index ≤ 127) {k k' : Chapter} {up dn : List Nat}
    (hk : s.chapter? c = some k) (he : SegmentEdit s c.title k.segments k'.segments up dn) :
    ((s.takeMem.raise up).lower dn).Counted ((s.setTakeMem ((s.takeMem.raise up).lower dn)).editChapter c k').spans := by
  obtain ⟨old, new, rest, hold, hnew, rfl, rfl, hserves⟩ := he.split
  have hbefore := h.counted.perm (h.spans_perm hi hk).symm
  have hafter := (segmentSpans_put h.chapters c.key k'.edited).append_right (roomSpans s.titles)
  rw [ChapterId.key_title hi, List.append_assoc] at hafter
  have hold' := (hold.map (TakeSpan.segment c.title)).symm.append_right
    (segmentSpans (Tab.drop s.chapters c.key) ++ roomSpans s.titles)
  have hnew' := (hnew.map (TakeSpan.segment c.title)).append_right
    (segmentSpans (Tab.drop s.chapters c.key) ++ roomSpans s.titles)
  rw [List.map_append, List.append_assoc] at hold' hnew'
  have hmove := (hbefore.perm hold').moveCounts (new := new.map (.segment c.title)) fun x hx => by
    obtain ⟨g, hg, rfl⟩ := List.mem_map.1 hx
    exact (hserves g hg).fits
  rw [TakeMemory.spanGroups_segments, TakeMemory.spanGroups_segments] at hmove
  rw [State.editChapter_spans]
  exact hmove.perm (hafter.trans hnew')

/-- R23: a new chapter has no segment. -/
theorem defined (h : s.Ready) {c : ChapterId} (hn : s.chapter? c = none) :
    s.takeMem.Counted (s.setChapter c newChapter).spans := by
  have hput := (segmentSpans_put h.chapters c.key newChapter).append_right (roomSpans s.titles)
  rw [Tab.drop_of_look_none h.chapters hn] at hput
  exact h.counted.perm hput

end State.Ready

section
variable {s t : State}

/-- The spans, the operations and take memory as they were. -/
theorem State.Accounted.same (h : s.Accounted) (hs : State.SameSpans s t) (hm : t.takeMem = s.takeMem) : t.Accounted := by
  refine ⟨h.programs.keep (fun p o ho => hs.operation p ▸ ho) fun _ _ _ _ _ _ _ hr => hm ▸ hr, ?_⟩
  rw [hm, hs.spans]
  exact h.counted

/-- R64: what a request leaves of the spans and the counts, if it gives no room tone to a title that it finds FREE. -/
theorem Change.counted {p : Port} (hc : Change p s t) (h : s.Ready)
    (hfree : ∀ th, s.title? th = none → (t.title? th).bind (fun x => x.roomTone) = none) : t.takeMem.Counted t.spans := by
  have same : State.SameSpans s t → t.takeMem = s.takeMem → t.takeMem.Counted t.spans := fun hs hm =>
    (h.toAccounted.same hs hm).counted
  cases hc with
  | same => exact h.counted
  | registered th t hf hr =>
    have hn := hfree th hf
    rw [State.title?, if_pos hr, State.setTitle_titles, Tab.look_put_same] at hn
    exact h.registered hf hr hn
  | titleState th t st ht =>
    rw [h.spans_setTitle (t' := { t with state := st }) ht rfl]
    exact h.counted
  | titleParams th t t' ht hl hr =>
    rw [(State.SameSpans.markStale _ th).spans, h.spans_setTitle ht hr]
    exact h.counted
  | tone th t r ht hl hr =>
    have hs := State.SameSpans.markStale (s.moveTone th t r) th
    rw [hs.spans]
    exact h.tone ht hr
  | retired th t ht => exact h.retired ht
  | defined th index t ht hi hn => exact h.defined hn
  | deleted th index t k ht hi hk => exact h.deleted hi hk
  | edited th index t k k' up dn ht hi hk hst hpr hpub hser hstale he =>
    rw [State.editChapter_takeMem]
    exact h.edited hi hk he
  | queued th index t k q ht hi hk => exact same (.enqueue h.chapters hk q) rfl
  | cancelled th index t k ht hi hk => exact same (.cancel h.chapters hk) (s.unqueue_takeMem ..)
  | wheel | lanes | limit | opened | reading => exact h.counted
  | closed slot => exact same (.endHold h.chapters slot) (s.endHold_takeMem slot)
  | popped | masked | sequence => exact h.counted
  | portReset => exact same (.resetPort h.chapters p) (s.resetPort_takeMem p)
  | takeOpened th id g rest hf hc => exact h.counted.openTake h.grouped (by simpa using List.find?_some hf) hc
  | writing take t ht _ hst => exact h.counted.startBlock h.grouped ht hst _
  | takeFreed take t ht hst =>
    exact (h.counted.releaseAll t.owned).dropTake ((congrArg (Tab.look · take) (s.takeMem.releaseAll_takes _)).trans ht) (.inl hst)
  | takeClosed take tail t ht hst => exact h.counted.setTake ht hst _
  | discarded take first last =>
    have hd := h.counted.commitDiscard h.grouped p take first last
    obtain ⟨m, q, he⟩ := s.commitDiscard_eq p take first last
    rw [he] at hd ⊢
    exact hd

theorem Change.accounted {p : Port} (hc : Change p s t) (h : s.Ready)
    (hfree : ∀ th, s.title? th = none → (t.title? th).bind (fun x => x.roomTone) = none) : t.Accounted :=
  ⟨h.programs.keep (fun q _ ho => hc.operation h.chapters q ▸ ho) fun _ _ _ _ _ _ _ hr => hr.change hc h.grouped.1,
    hc.counted h hfree⟩

end

end Sys2Proof.Machine
end


section
/-! SUPPORT. R9, R54: what the answer of a request says: a program starts for a take that had none and now runs it, and a title that
the request finds FREE has no room tone afterwards. -/

namespace Sys2Proof.Machine

/-- R54: the answer starts no program, or one for a take that ran none before and runs it now. R1: a title that was FREE has no room
tone. -/
structure Taken (s : State) (x : Answer × State) : Prop where
  starts : ∀ take block data, x.1 = .started (.program take block data) →
    (∀ b, ¬ s.takeMem.Running take b) ∧ x.2.takeMem.Running take block
  free   : ∀ th, s.title? th = none → (x.2.title? th).bind (fun t => t.roomTone) = none

namespace Taken

variable {s t : State}

theorem reply (res : Result) (h : ∀ th, s.title? th = none → (t.title? th).bind (fun t => t.roomTone) = none) :
    Taken s (.reply res, t) := ⟨fun _ _ _ he => (nomatch he), h⟩

/-- An answer at once that leaves the titles. -/
theorem replyKeep (res : Result) (h : t.titles = s.titles) : Taken s (.reply res, t) :=
  reply res fun th hf => by rw [State.title?, h, ← State.title?, hf, Option.bind_none]

theorem refused (st : Status) (s : State) : Taken s (refuse st s) := replyKeep _ rfl

theorem accepted {results : List Byte} {flags : ReplyFlags} (h : t.titles = s.titles) : Taken s (accept results t flags) :=
  replyKeep _ h

/-- A title is stored: one that the request resolves, or one without room tone. -/
theorem storesTitle {th : Nat} {y : Title} (hy : s.title? th ≠ none ∨ y.roomTone = none) (res : Result)
    (h : t.titles = Tab.put s.titles th y) : Taken s (.reply res, t) := by
  refine reply res fun n hn => ?_
  rw [State.title?, h]
  by_cases hth : n = th
  · subst hth
    rw [Tab.look_put_same]
    split
    · exact hy.resolve_left (not_not.2 hn)
    · rfl
  · rw [Tab.look_put_other _ _ hth, ← State.title?, hn, Option.bind_none]

/-- A title that the request resolves is stored again. -/
theorem storesAgain {th : Nat} {x y : Title} (hx : s.title? th = some x) (res : Result) (h : t.titles = Tab.put s.titles th y) :
    Taken s (.reply res, t) := storesTitle (.inl (by simp [hx])) res h

theorem withTitle {th : Nat} {k : Title → Answer × State} (h : ∀ x, s.title? th = some x → Taken s (k x)) :
    Taken s (withTitle th s k) := by
  unfold Machine.withTitle
  split
  · exact refused ..
  · next hx => exact h _ hx

theorem withTake {th take : Nat} {k : Take → Answer × State} (h : ∀ x, s.take? th take = some x → Taken s (k x)) :
    Taken s (withTake th take s k) := by
  unfold Machine.withTake
  split
  · exact refused ..
  · next hx => exact h _ hx

theorem withChapter {th index : Nat} {k : Chapter → Answer × State} (h : ∀ x, Taken s (k x)) :
    Taken s (withChapter th index s k) := by
  unfold Machine.withChapter
  split
  · exact refused ..
  · split
    · exact refused ..
    · exact h _

theorem withHold {p : Port} {th slot generation : Nat} {k : Hold → Answer × State} (h : ∀ x, Taken s (k x)) :
    Taken s (withHold p th slot generation s k) := by
  unfold Machine.withHold
  split
  · exact refused ..
  split
  · exact refused ..
  split
  · exact refused ..
  split
  · exact refused ..
  · exact h _

theorem withOpenTitle {th : Nat} {k : Title → Answer × State} (h : ∀ x, s.title? th = some x → Taken s (k x)) :
    Taken s (withOpenTitle th s k) :=
  withTitle fun x hx => by
    split
    · exact refused ..
    · exact h x hx

theorem titleChange {th : Nat} {k : Title → Answer × State} (h : ∀ x, s.title? th = some x → Taken s (k x)) :
    Taken s (titleChange th s k) :=
  withTitle fun x hx => by
    split
    · exact refused ..
    split
    · exact refused ..
    · exact h x hx

theorem withSegment {th : Nat} {g : Segment} {l : List Segment} {k : Chapter} {e : Answer × State} (h : Taken s e) :
    Taken s (withSegment th g l k s e) :=
  withTake fun _ _ => by
    split
    · exact refused ..
    split
    · exact refused ..
    · exact h

/-! The requests. -/

theorem takeEdit (c : ChapterId) (k : Chapter) (m : TakeMemory) (s : State) : Taken s (takeEdit c k m s) :=
  accepted (State.editChapter_titles (s.setTakeMem m) c k)

theorem writeBlock (th take block : Nat) (data : List Byte) (crc : BitVec 16) (s : State) :
    Taken s (writeBlock th take block data crc s) := by
  refine withTitle fun _ _ => withTake fun t ht => ?_
  split
  · exact refused ..
  next hst =>
  split
  · exact refused ..
  next hn =>
  split
  · exact refused ..
  split
  · exact replyKeep _ rfl
  split
  · exact refused ..
  split
  · exact refused ..
  · obtain ⟨hlook, -⟩ := State.take_look ht
    refine ⟨fun id b d he => ?_, fun th hf => ?_⟩
    · cases he
      refine ⟨fun b hr => hr.ne_of_look hlook (.inr (by simpa using hn)) rfl, ?_⟩
      refine ⟨_, Tab.look_put_same .., ?_, rfl⟩
      unfold TakeMemory.drawForBlock
      split <;> exact not_not.1 hst
    · exact Option.bind_eq_none_iff.2 fun x hx => nomatch hf.symm.trans hx

theorem openTake (th : Nat) (s : State) : Taken s (openTake th s) := by
  refine withTitle fun _ _ => ?_
  split
  · exact refused ..
  split
  · exact refused ..
  · exact refused ..
  · exact accepted rfl

theorem closeTake (th take tail : Nat) (s : State) : Taken s (closeTake th take tail s) := by
  refine withTitle fun _ _ => withTake fun _ _ => ?_
  split
  · exact refused ..
  split
  · exact refused ..
  split
  · exact refused ..
  split
  · exact accepted rfl
  · exact accepted rfl

theorem discardFirst (p : Port) (th take index : Nat) (s : State) : Taken s (discardFirst p th take index s) := by
  refine withTitle fun _ _ => withTake fun _ _ => ?_
  split
  · exact refused ..
  · exact accepted rfl

theorem discardLast (p : Port) (th take index : Nat) (s : State) : Taken s (discardLast p th take index s) := by
  refine withTitle fun _ _ => ?_
  split
  · exact refused ..
  · exact refused ..
  refine withTake fun _ _ => ?_
  split
  · exact refused ..
  split
  · exact refused ..
  split
  · exact refused ..
  · exact accepted rfl

theorem discardCommit (p : Port) (th : Nat) (s : State) : Taken s (discardCommit p th s) := by
  refine withTitle fun _ _ => ?_
  split
  · exact refused ..
  split
  · exact refused ..
  · exact refused ..
  · next take first last _ =>
    obtain ⟨m, q, he⟩ := s.commitDiscard_eq p take first last
    exact withTake fun _ _ => accepted (he ▸ rfl)

theorem setProfile (th index : Nat) (q : Profile) (s : State) : Taken s (setProfile th index q s) := by
  refine titleChange fun x hx => ?_
  split
  · exact refused ..
  · exact storesAgain hx _ rfl

theorem setProfileCount (th n : Nat) (s : State) : Taken s (setProfileCount th n s) := by
  refine titleChange fun x hx => ?_
  split
  · exact refused ..
  · exact storesAgain hx _ rfl

theorem setRoomTone (th take start length : Nat) (s : State) : Taken s (setRoomTone th take start length s) := by
  refine titleChange fun x hx => withTake fun _ _ => ?_
  split
  · exact refused ..
  split
  · exact refused ..
  · exact storesAgain hx _ rfl

theorem holdTitle (th : Nat) (s : State) : Taken s (holdTitle th s) := by
  refine withTitle fun x hx => ?_
  split
  · exact storesAgain hx _ rfl
  · exact accepted rfl
  · exact refused ..

theorem releaseTitle (th : Nat) (s : State) : Taken s (releaseTitle th s) := by
  refine withTitle fun x hx => ?_
  split
  · exact storesAgain hx _ rfl
  · exact accepted rfl
  · exact refused ..

theorem finalizeTitle (th : Nat) (s : State) : Taken s (finalizeTitle th s) := by
  refine withTitle fun x hx => ?_
  split
  · exact accepted rfl
  split
  · exact replyKeep _ rfl
  split
  · exact replyKeep _ rfl
  split
  · exact replyKeep _ rfl
  · exact storesAgain hx _ rfl

theorem defineChapter (th c : Nat) (s : State) : Taken s (defineChapter th c s) := by
  refine withOpenTitle fun _ _ => ?_
  split
  · exact refused ..
  split
  · exact refused ..
  · exact accepted rfl

theorem deleteChapter (th c : Nat) (s : State) : Taken s (deleteChapter th c s) := by
  refine withOpenTitle fun _ _ => withChapter fun k => ?_
  split
  · exact refused ..
  · exact accepted (State.SameSpans.unqueue s ⟨th, c⟩ k .deleted).titles

theorem setChapterPads (th c head tail : Nat) (s : State) : Taken s (setChapterPads th c head tail s) := by
  refine withOpenTitle fun _ _ => withChapter fun _ => ?_
  split
  · exact refused ..
  · exact takeEdit ..

theorem insertSegment (th c position : Nat) (g : Segment) (s : State) : Taken s (insertSegment th c position g s) := by
  refine withOpenTitle fun _ _ => withChapter fun _ => ?_
  split
  · exact refused ..
  split
  · exact refused ..
  · exact withSegment (takeEdit ..)

theorem replaceSegment (th c position : Nat) (g : Segment) (s : State) : Taken s (replaceSegment th c position g s) := by
  refine withOpenTitle fun _ _ => withChapter fun _ => ?_
  split
  · exact refused ..
  · exact withSegment (takeEdit ..)

theorem removeSegment (th c position : Nat) (s : State) : Taken s (removeSegment th c position s) := by
  refine withOpenTitle fun _ _ => withChapter fun _ => ?_
  split
  · exact refused ..
  split
  · exact refused ..
  · exact takeEdit ..

theorem queueRender (th c q : Nat) (s : State) : Taken s (queueRender th c q s) := by
  refine withTitle fun _ _ => ?_
  split
  · exact refused ..
  refine withChapter fun _ => ?_
  split
  · exact refused ..
  split
  · exact refused ..
  split
  · exact refused ..
  split
  · exact refused ..
  · exact accepted rfl

theorem cancelRender (th c : Nat) (s : State) : Taken s (cancelRender th c s) := by
  refine withTitle fun _ _ => withChapter fun k => ?_
  split
  · exact refused ..
  · exact accepted (State.SameSpans.unqueue s ⟨th, c⟩ k .cancelled).titles

theorem setWheel (e0 e1 e2 e3 : Nat) (s : State) : Taken s (setWheel e0 e1 e2 e3 s) := by
  unfold Machine.setWheel
  split
  · exact accepted rfl
  · exact refused ..

theorem chapterInfo (th c : Nat) (s : State) : Taken s (chapterInfo th c s) := by
  refine withTitle fun _ _ => ?_
  split
  · exact refused ..
  split
  · exact accepted rfl
  · exact accepted rfl

theorem takeInfo (th take first : Nat) (s : State) : Taken s (takeInfo th take first s) := by
  refine withTitle fun _ _ => withTake fun _ _ => ?_
  split
  · exact refused ..
  · exact accepted rfl

theorem registerTitle (catalogue : Nat) (s : State) : Taken s (registerTitle catalogue s) := by
  unfold Machine.registerTitle
  split
  · exact refused ..
  split
  · exact accepted rfl
  split
  · exact refused ..
  · exact storesTitle (.inr rfl) _ rfl

theorem retireTitle (th : Nat) (s : State) : Taken s (retireTitle th s) := by
  refine withTitle fun t _ => ?_
  split
  · exact refused ..
  split
  · exact refused ..
  · refine reply _ fun n hn => ?_
    have hgone : (s.retire th t).title? n = none := by
      rw [State.retire_eq, State.title?]
      split
      · next hr =>
        rw [State.title?, if_pos hr] at hn
        rw [Tab.look_drop, hn, ite_self]
      · rfl
    rw [hgone, Option.bind_none]

theorem setLanes (lanes : Byte) (s : State) : Taken s (setLanes lanes s) := by
  unfold Machine.setLanes
  split
  · exact refused ..
  · exact accepted rfl

theorem openRead (p : Port) (th c rendition : Nat) (s : State) : Taken s (openRead p th c rendition s) := by
  refine withTitle fun _ _ => withChapter fun _ => ?_
  split
  · exact refused ..
  split
  · exact refused ..
  split
  · exact refused ..
  split
  · exact refused ..
  split
  · exact refused ..
  split
  · exact refused ..
  split
  · exact refused ..
  split
  · exact refused ..
  · exact accepted rfl

theorem readRange (p : Port) (th slot generation offset length : Nat) (s : State) :
    Taken s (readRange p th slot generation offset length s) := by
  refine withTitle fun _ _ => withHold fun _ => ?_
  split
  · exact refused ..
  split
  · exact refused ..
  · exact ⟨fun _ _ _ he => (nomatch he), fun _ hf => Option.bind_eq_none_iff.2 fun _ hx => nomatch hf.symm.trans hx⟩

theorem popNotice (p : Port) (code : Nat) (s : State) : Taken s (popNotice p code s) := by
  unfold Machine.popNotice
  split
  · exact refused ..
  split
  · exact accepted rfl
  · exact accepted rfl

theorem setNoticeMask (p : Port) (lists : Byte) (s : State) : Taken s (setNoticeMask p lists s) := by
  unfold Machine.setNoticeMask
  split
  · exact refused ..
  · exact accepted rfl

end Taken

/-- What the answer of every request says. -/
theorem handle_taken (p : Port) (r : Request) {s : State} (hw : Tab.wf s.chapters = true) : Taken s (handle p r s) := by
  cases r with
  | openTake => exact Taken.openTake ..
  | writeBlock => exact Taken.writeBlock ..
  | closeTake => exact Taken.closeTake ..
  | discardFirst => exact Taken.discardFirst ..
  | discardLast => exact Taken.discardLast ..
  | discardCommit => exact Taken.discardCommit ..
  | registerTitle => exact Taken.registerTitle ..
  | setTitleParams => exact .titleChange fun _ hx => .storesAgain hx _ rfl
  | setProfile => exact Taken.setProfile ..
  | setProfileCount => exact Taken.setProfileCount ..
  | setRoomTone => exact Taken.setRoomTone ..
  | clearRoomTone => exact .titleChange fun _ hx => .storesAgain hx _ rfl
  | holdTitle => exact Taken.holdTitle ..
  | releaseTitle => exact Taken.releaseTitle ..
  | finalizeTitle => exact Taken.finalizeTitle ..
  | retireTitle => exact Taken.retireTitle ..
  | defineChapter => exact Taken.defineChapter ..
  | deleteChapter => exact Taken.deleteChapter ..
  | setChapterPads => exact Taken.setChapterPads ..
  | insertSegment => exact Taken.insertSegment ..
  | replaceSegment => exact Taken.replaceSegment ..
  | removeSegment => exact Taken.removeSegment ..
  | queueRender => exact Taken.queueRender ..
  | cancelRender => exact Taken.cancelRender ..
  | setWheel => exact Taken.setWheel ..
  | setLanes => exact Taken.setLanes ..
  | setHoldLimit => exact .accepted rfl
  | openRead => exact Taken.openRead ..
  | readRange => exact Taken.readRange ..
  | closeRead => exact .withTitle fun _ _ => .withHold fun _ => .accepted (State.SameSpans.endHold hw _).titles
  | titleInfo => exact .withTitle fun _ _ => .accepted rfl
  | chapterInfo => exact Taken.chapterInfo ..
  | takeInfo => exact Taken.takeInfo ..
  | laneInfo => exact .accepted rfl
  | popNotice => exact Taken.popNotice ..
  | setNoticeMask => exact Taken.setNoticeMask ..
  | deviceStatus => exact .accepted rfl
  | portReset => exact .accepted (State.SameSpans.resetPort hw p).titles

end Sys2Proof.Machine
end


section
/-! SUPPORT. R18, R49, R64: every step keeps what rests on the references. `Kept` does not fit: which programs are in flight is in the
operations of the ports, and a program that ends is that of its port. -/

namespace Sys2Proof.Machine

variable {s t : State}

/-! ### The operations of the ports -/

/-- R182: the operation of a port ends, and nothing else but its reply. -/
theorem State.completeOp_ends (s : State) (p : Port) (o : Operation) (res : Result) :
    (s.completeOp p o res).takeMem = s.takeMem ∧ (s.completeOp p o res).spans = s.spans ∧
      ∀ q x, ((s.completeOp p o res).port q).operation = some x → q ≠ p ∧ (s.port q).operation = some x := by
  have hends : ∀ f : PortRecord → PortRecord, (∀ r, (f r).operation = none) →
      ∀ q x, ((s.changePort p f).port q).operation = some x → q ≠ p ∧ (s.port q).operation = some x := by
    intro f hf q x hx
    by_cases hq : q = p
    · subst hq
      rw [State.port_changePort_same, hf] at hx
      cases hx
    · rw [State.port_changePort_other _ _ hq] at hx
      exact ⟨hq, hx⟩
  rw [State.completeOp_eq rfl]
  split
  · exact ⟨rfl, rfl, hends _ fun _ => rfl⟩
  · exact ⟨rfl, rfl, hends _ fun _ => rfl⟩

namespace State.Accounted

/-- Operations of ports end, or stay as they are. -/
theorem ports (h : s.Accounted) (q : Ports) (hq : ∀ p o, (q.get p).operation = some o → (s.port p).operation = some o) :
    State.Accounted { s with ports := q } := ⟨h.programs.keep hq fun _ _ _ _ _ _ _ hr => hr, h.counted⟩

theorem changePort (h : s.Accounted) (p : Port) {f : PortRecord → PortRecord} (hf : ∀ r, (f r).operation = r.operation) :
    (s.changePort p f).Accounted := h.same (.changePort s p hf) rfl

theorem setSequence (h : s.Accounted) (p : Port) (d : DiscardSeq) : (s.setSequence p d).Accounted := h.changePort p fun _ => rfl

theorem answer (h : s.Accounted) (p : Port) (tag : Byte) (b : Bool) (res : Result) : (s.answer p tag b res).Accounted :=
  h.changePort p fun _ => rfl

/-- R186: a port starts an operation. A program is that of a take which runs it and which no other port names. -/
theorem execute (h : s.Accounted) (p : Port) (tag : Byte) (b : Bool) {w : Work}
    (hw : ∀ take block data, w = .program take block data → s.takeMem.Running take block ∧
      ∀ q o b' data', (s.port q).operation = some o → o.work ≠ .program take b' data') : (s.execute p tag b w).Accounted := by
  obtain ⟨hruns, hone⟩ := h.programs
  have hself : ((s.execute p tag b w).port p).operation = some ⟨tag, b, w⟩ := by
    rw [State.execute, State.port_changePort_same]
  have hother : ∀ {q}, q ≠ p → ((s.execute p tag b w).port q).operation = (s.port q).operation := fun hq => by
    rw [State.execute, State.port_changePort_other _ _ hq]
  refine ⟨⟨fun q o take block data ho hwork => ?_, fun q q' o u take b1 b2 d1 d2 ho hu hwo hwu => ?_⟩, h.counted⟩
  · by_cases hq : q = p
    · subst hq
      cases hself.symm.trans ho
      exact (hw take block data hwork).1
    · exact hruns q o take block data (hother hq ▸ ho) hwork
  · by_cases hq : q = p
    · subst hq
      cases hself.symm.trans ho
      by_cases hq' : q' = q
      · exact hq'.symm
      · exact absurd hwu ((hw take b1 d1 hwo).2 q' u b2 d2 (hother hq' ▸ hu))
    · by_cases hq' : q' = p
      · subst hq'
        cases hself.symm.trans hu
        exact absurd hwo ((hw take b2 d2 hwu).2 q o b1 d1 (hother hq ▸ ho))
      · exact hone q q' o u take b1 b2 d1 d2 (hother hq ▸ ho) (hother hq' ▸ hu) hwo hwu

theorem completeOp (h : s.Accounted) (p : Port) (o : Operation) (res : Result) : (s.completeOp p o res).Accounted := by
  obtain ⟨hm, hs, hop⟩ := s.completeOp_ends p o res
  refine ⟨h.programs.keep (fun q x hx => (hop q x hx).2) fun _ _ _ _ _ _ _ hr => hm ▸ hr, ?_⟩
  rw [hm, hs]
  exact h.counted

/-- R56, R57: the program of a port ends; `u` is the part when its end has changed the take, and no other program's take. -/
theorem endProgram (h : s.Accounted) {p : Port} {o : Operation} {take block : Nat} {data : List Byte}
    (ho : (s.port p).operation = some o) (hw : o.work = .program take block data) {u : State} (hc : u.takeMem.Counted u.spans)
    (hop : ∀ q, (u.port q).operation = (s.port q).operation)
    (hrun : ∀ id b, id ≠ take → s.takeMem.Running id b → u.takeMem.Running id b) (res : Result) :
    (u.completeOp p o res).Accounted := by
  obtain ⟨hm, hs, hends⟩ := u.completeOp_ends p o res
  have hprograms := h.programs
  obtain ⟨-, hone⟩ := hprograms
  refine ⟨h.programs.keep (fun q x hx => hop q ▸ (hends q x hx).2) fun q x id b d hx hwx hr => ?_, by rw [hm, hs]; exact hc⟩
  obtain ⟨hq, hx⟩ := hends q x hx
  rw [hm]
  refine hrun id b (fun hid => hq ?_) hr
  subst hid
  exact hone q p x o id b block d data (hop q ▸ hx) ho hwx hw

end State.Accounted

/-! ### Requests -/

namespace State.Ready

theorem changePort (h : s.Ready) (p : Port) {f : PortRecord → PortRecord} (hf : ∀ r, (f r).operation = r.operation) :
    (s.changePort p f).Ready := { h.toAccounted.changePort p hf with chapters := h.chapters, titles := h.titles, grouped := h.grouped }

theorem turnAway (h : s.Ready) (p : Port) (tag : Byte) (st : Status) : (s.turnAway p tag st).Accounted :=
  (h.toAccounted.setSequence p _).answer p _ _ _

theorem interrupt (h : s.Ready) (p : Port) (r : Request) : (s.interrupt p r).Ready := by
  unfold State.interrupt
  split
  · exact h
  · exact h.changePort p fun _ => rfl

/-- R185, R186: a request is handled, and its port answers or starts its operation. -/
theorem settle (h : s.Ready) (p : Port) (tag : Byte) (r : Request) (b : Bool) :
    ((handle p r s).2.settle p tag r b (handle p r s).1).Accounted := by
  have hchange := handle_change p r s
  obtain ⟨hstarts, hfree⟩ := handle_taken p r h.chapters
  have hafter := hchange.accounted h hfree
  unfold State.settle
  split
  · next w hw =>
    refine hafter.execute p tag b fun take block data he => ?_
    obtain ⟨hnone, hruns⟩ := hstarts take block data (hw.trans (congrArg Answer.started he))
    refine ⟨hruns, fun q o b' data' ho hwork => hnone b' ?_⟩
    obtain ⟨hprograms, -⟩ := h.programs
    exact hprograms q o take b' data' (hchange.operation h.chapters q ▸ ho) hwork
  · split
    · exact hafter.answer p _ _ _
    · exact (hafter.setSequence p _).answer p _ _ _

theorem takeRequest (h : s.Ready) (p : Port) (tag : Byte) (r : Request) : (s.takeRequest p tag r).Accounted := by
  unfold State.takeRequest
  split
  · exact h.turnAway p tag _
  split
  · exact h.turnAway p tag _
  · exact (h.interrupt p r).settle p tag r _

theorem takeBytes (h : s.Ready) (p : Port) (bs : List Byte) : (s.takeBytes p bs).Accounted := by
  unfold State.takeBytes
  split
  · exact h.toAccounted
  · exact h.turnAway p _ _
  · exact h.takeRequest p _ _

theorem endSpan (h : s.Ready) (p : Port) (n : Nat) {take : State → State} (ht : ∀ u : State, u.Ready → (take u).Accounted) :
    (s.endSpan p n take).Accounted := by
  have hclosed : (s.closeSpan p n).Ready := h.changePort p fun _ => rfl
  unfold State.endSpan
  split
  · exact ht _ hclosed
  · split
    · exact hclosed.toAccounted.changePort p fun _ => rfl
    · exact hclosed.toAccounted
  all_goals exact hclosed.toAccounted

/-! ### The ends of operations -/

theorem programDone (h : s.Ready) (p : Port) : (s.programDone p).Accounted := by
  unfold State.programDone
  split
  · exact h.toAccounted
  next o ho =>
  split
  · exact h.toAccounted
  next take block data hw =>
  split
  · exact h.toAccounted
  next t ht =>
  obtain ⟨hruns, -⟩ := h.programs
  obtain ⟨u, hu, hst, -⟩ := hruns p o take block data ho hw
  cases ht.symm.trans hu
  exact h.endProgram ho hw (u := s.setTakeMem (s.takeMem.blockDone take t block data)) (h.counted.blockDone ht hst block data)
    (fun _ => rfl) (fun id b hid hr => hr.setTake (m := s.takeMem) hid _) _

theorem programFailed (h : s.Ready) (p : Port) : (s.programFailed p).Accounted := by
  unfold State.programFailed
  split
  · exact h.toAccounted
  next o ho =>
  split
  · exact h.toAccounted
  next take block data hw =>
  split
  · exact h.toAccounted
  next t ht =>
  split
  · exact h.toAccounted
  next g _ =>
  obtain ⟨hruns, -⟩ := h.programs
  obtain ⟨u, hu, hst, -⟩ := hruns p o take block data ho hw
  cases ht.symm.trans hu
  have hc := h.counted.blockFailed ht hst block g
  refine h.endProgram ho hw ?_ (s.blockFailed_operation take t block g) (fun id b hid hr => hr.blockFailed hid t block g) _
  obtain ⟨m, q, he⟩ := s.blockFailed_eq take t block g
  rw [he] at hc ⊢
  exact hc

theorem fetchDone (h : s.Ready) (p : Port) : (s.fetchDone p).Accounted := by
  have hfetch : ∀ slot, (s.endFetch slot).Accounted := fun slot => h.toAccounted.same ⟨rfl, rfl, fun _ => rfl⟩ rfl
  unfold State.fetchDone
  split
  · exact h.toAccounted
  split
  · exact h.toAccounted
  next slot stale _ =>
  split
  · refine ((hfetch slot).same (.endHold ?_ slot) (State.endHold_takeMem ..)).completeOp p _ _
    exact h.chapters
  · exact (hfetch slot).completeOp p _ _

/-! ### Every command -/

end State.Ready

section
variable (m : TakeMemory)

theorem TakeMemory.eraseStart_takes : m.eraseStart.takes = m.takes := by
  unfold TakeMemory.eraseStart
  split <;> rfl

theorem TakeMemory.eraseDone_takes : m.eraseDone.takes = m.takes := by
  unfold TakeMemory.eraseDone
  split <;> rfl

theorem TakeMemory.eraseFailed_takes : m.eraseFailed.takes = m.takes := by
  unfold TakeMemory.eraseFailed
  split <;> rfl

end

namespace State.Ready

theorem abandonAll (h : s.Ready) : s.abandonAll.Accounted := by
  have hnone : ∀ q, (s.abandonAll.port q).operation = none := fun q => by cases q <;> rfl
  refine ⟨h.programs.keep (fun q o ho => ?_) fun q o _ _ _ ho => ?_, h.counted.abandon⟩
  · cases (hnone q).symm.trans ho
  · cases (hnone q).symm.trans ho

theorem grantSlot (h : s.Ready) {f : Option Nat} (ht : s.grantSlot f = some t) : t.Accounted := by
  have hs := State.SameSpans.grantSlot h.chapters ht
  rcases grantSlot_takeMem ht with he | ⟨g, take, block, -, he⟩
  · exact h.toAccounted.same hs he
  · refine ⟨h.programs.keep (fun p o ho => hs.operation p ▸ ho) fun _ _ _ _ _ _ _ hr => he ▸ hr, ?_⟩
    rw [he, hs.spans]
    exact h.counted.setGroup rfl

end State.Ready

/-- R41, R47: a device reset leaves no count, no span and no operation. -/
theorem State.accounted_restart (s : State) (cause : ResetCause) (ra rb rc : Role) : (s.restart cause ra rb rc).Accounted := by
  have hnone : ∀ q, ((s.restart cause ra rb rc).port q).operation = none := fun q => by cases q <;> rfl
  refine ⟨⟨fun q o _ _ _ ho => ?_, fun q _ o _ _ _ _ _ _ ho => ?_⟩, fun _ hx => (nomatch hx), List.length_replicate, fun g _ => ?_⟩
  · cases (hnone q).symm.trans ho
  · cases (hnone q).symm.trans ho
  · have hgroup : TakeMemory.atReset.group g = Group.atReset := by
      simp only [TakeMemory.group, TakeMemory.atReset, List.getD_eq_getElem?_getD, List.getElem?_replicate]
      split <;> rfl
    exact congrArg Group.refs hgroup

namespace State.Ready

theorem finish (h : s.Accounted) (ht : Machine.finish s = .next t) : t.Accounted := by
  cases ht
  refine h.ports _ fun p o ho => ?_
  rwa [Ports.get_map] at ho

theorem event (h : s.Ready) {f : State → State} (hf : (f s).Accounted) (ht : Machine.event f s = .next t) : t.Accounted := by
  unfold Machine.event at ht
  refine finish ?_ ht
  split
  · exact h.toAccounted
  · exact hf

theorem setTakeMem (h : s.Ready) {m : TakeMemory} (hm : m.Counted s.spans) (ht : m.takes = s.takeMem.takes) :
    (s.setTakeMem m).Accounted := ⟨h.programs.keep (fun _ _ ho => ho) fun _ _ _ _ _ _ _ hr => hr.congr ht, hm⟩

/-- Every command keeps what rests on the references. -/
theorem exec (h : s.Ready) {i : Instr} (ht : Machine.exec i s = .next t) : t.Accounted := by
  cases i with
  | deviceReset cause sa sb sc => exact finish (s.accounted_restart ..) ht
  | transaction p rx x => exact finish (h.endSpan p _ fun _ hu => hu.takeBytes p _) ht
  | portResetLine p =>
    refine finish ?_ ht
    split
    · exact h.toAccounted.changePort p fun _ => rfl
    · have hcut := h.changePort p (f := PortRecord.cutOff p) fun _ => rfl
      exact hcut.toAccounted.same (.resetPort hcut.chapters p) (State.resetPort_takeMem ..)
  | programCompletion p => exact h.event (f := fun s => s.programDone p) (h.programDone p) ht
  | programFault p => exact h.event (f := fun s => s.programFailed p) (h.programFailed p) ht
  | eraseStart =>
    exact h.event (f := fun s => s.setTakeMem s.takeMem.eraseStart) (h.setTakeMem h.counted.eraseStart s.takeMem.eraseStart_takes) ht
  | eraseCompletion =>
    exact h.event (f := fun s => s.setTakeMem s.takeMem.eraseDone) (h.setTakeMem h.counted.eraseDone s.takeMem.eraseDone_takes) ht
  | eraseFault =>
    exact h.event (f := fun s => s.setTakeMem s.takeMem.eraseFailed) (h.setTakeMem h.counted.eraseFailed s.takeMem.eraseFailed_takes) ht
  | fetchCompletion p => exact h.event (f := fun s => s.fetchDone p) (h.fetchDone p) ht
  | dispatch => exact h.event (h.toAccounted.same (.dispatchOne h.chapters) s.dispatchOne_takeMem) ht
  | wheelSlot f =>
    simp only [Machine.exec, execWheelSlot] at ht
    split at ht
    · exact finish h.toAccounted ht
    · split at ht
      · cases ht
      · next hg => exact finish ((h.grantSlot hg).same (t := State.advanceWheel _) ⟨rfl, rfl, fun _ => rfl⟩ rfl) ht
  | holdClockStep =>
    exact h.event (f := fun s => { s with holdTable := s.holdTable.clockStep })
      (h.toAccounted.same ⟨rfl, rfl, fun _ => rfl⟩ rfl) ht
  | holdExpiry => exact h.event (h.toAccounted.same (.expireHold h.chapters) s.expireHold_takeMem) ht
  | resetPinAsserted cause =>
    refine finish ?_ ht
    exact h.abandonAll.same ⟨rfl, rfl, fun _ => rfl⟩ rfl
  | portResetLineRelease p =>
    refine finish ?_ ht
    exact h.toAccounted.changePort p fun _ => rfl
  | transactionBegin p =>
    refine finish ?_ ht
    exact h.toAccounted.changePort p fun _ => rfl
  | _ => exact finish (h.endSpan _ _ fun _ hu => hu.takeRequest _ _ _) ht

theorem step (h : s.Ready) (ht : Machine.step s = .next t) : t.Accounted := by
  unfold Machine.step at ht
  split at ht
  · cases ht
    exact h.toAccounted
  · next i l _ =>
    have hr : State.Ready { s with pending := l } :=
      { h.toAccounted.same ⟨rfl, rfl, fun _ => rfl⟩ rfl with chapters := h.chapters, titles := h.titles, grouped := h.grouped }
    exact hr.exec ht

end State.Ready

end Sys2Proof.Machine

namespace Sys2Proof.Settled

open Sys2Proof.Machine

/-- Settles O57: each thing the part can do moves the counts together with the spans of the state; `State.counted_iff` gives the two
laws in the words of the statement. -/
theorem stepsKeepReferences : Obligations.StepsKeepReferences := by
  unfold Obligations.StepsKeepReferences
  intro s t hg ⟨htitles, hchapters, _⟩ hp hs hc hstep
  have hready : s.Ready := ⟨⟨hp, State.counted_iff.2 ⟨hs, hc⟩⟩, hchapters, htitles, hg⟩
  have hafter := hready.step hstep
  exact ⟨hafter.programs, State.counted_iff.1 hafter.counted⟩

end Sys2Proof.Settled
end


section
/-! SUPPORT. R67, R68, R72, R73: what the command of a discard request comes to at a port that listens, the answers of DISCARD-FIRST and
DISCARD-LAST, and the judgement of R70 entry by entry. -/

namespace Sys2Proof.Machine

/-! ### The command of a discard request -/

@[simp] theorem State.heardOn_sequence (s : State) (p : Port) (k : Nat) :
    ((s.heardOn p k).port p).sequence = (s.port p).sequence := by
  simp [State.heardOn]

section
variable {i : Instr} {p : Port} {tag : Byte} {r : Request} {s : State} (hi : i.request? = some (p, tag, r)) (h : s.listens p)
  (ha : s.allows p (requestClass r)) (hf : formatOk r = true) (hd : isDiscard r = true)
include hi h ha hf hd

/-- A discard request finds the sequence of its port. -/
theorem exec_discards :
    exec i s = .next ((handle p r (s.heardOn p (operandLength r))).2.settle p tag r (s.marked p)
      (handle p r (s.heardOn p (operandLength r))).1).driveAttn := by
  have hrole : ((s.heardOn p (operandLength r)).port p).role.accepts (requestClass r) = true := by
    simpa [State.heardOn, State.allows] using ha
  rw [exec_request hi, request_taken tag h, State.takeRequest, if_neg (by simp [hf]), if_neg (by simp [hrole]), State.interrupt,
    if_pos hd, State.heardOn_sequence, State.marked]

/-- R72: a refused discard request returns the sequence to NONE. -/
theorem exec_discard_refused {st : Status} (hst : st ≠ .ok)
    (hh : handle p r (s.heardOn p (operandLength r)) = refuse st (s.heardOn p (operandLength r))) :
    exec i s = .next (s.answered p tag (operandLength r) (s.marked p) { status := st }) := by
  rw [exec_discards hi h ha hf hd, hh]
  simp [refuse, State.settle, hst, State.answered, State.replied, State.answer, State.setSequence, State.changePort, State.setPort,
    State.heardOn, State.port]

/-- R73: of the taken discard requests only DISCARD-FIRST tells that it gave up a sequence. -/
theorem exec_discard_taken {t : State} {results : List Byte} {flags : ReplyFlags}
    (hh : handle p r (s.heardOn p (operandLength r)) = accept results t flags) :
    exec i s = .next (t.answer p tag (s.marked p && isDiscardFirst r) ⟨.ok, flags, results⟩).driveAttn := by
  rw [exec_discards hi h ha hf hd, hh]
  simp [accept, State.settle, hd]

/-- A taken discard request that puts its mark in the sequence, and changes nothing else. -/
theorem exec_discard_marks {d : DiscardSeq} {results : List Byte}
    (hh : handle p r (s.heardOn p (operandLength r)) = accept results ((s.heardOn p (operandLength r)).setSequence p d)) :
    exec i s = .next (s.replied p tag (operandLength r) d (s.marked p && isDiscardFirst r) { status := .ok, results := results }) := by
  rw [exec_discard_taken hi h ha hf hd hh]
  simp [State.replied, State.answer, State.setSequence, State.changePort, State.setPort, State.heardOn, State.port]

end

/-! ### DISCARD-FIRST -/

section
variable {s : State} {p : Port} {th take index : Nat} {ti : Title} {t : Take} (hti : s.title? th = some ti)
  (ht : s.take? th take = some t)
include hti ht

theorem discardFirst_range (hi : t.groups.length ≤ index) : discardFirst p th take index s = refuse .range s := by
  rw [discardFirst, withTitle_some hti, withTake_some ht, List.getElem?_eq_none hi]

theorem discardFirst_taken {e : Option Nat} (hi : t.groups[index]? = some e) : discardFirst p th take index s =
    accept (le 2 take ++ (le 2 index ++ entryBytes s.takeMem e)) (s.setSequence p (.firstSet take index)) := by
  rw [discardFirst, withTitle_some hti, withTake_some ht, hi]

end

/-! ### DISCARD-LAST -/

section
variable {s : State} {p : Port} {th take index : Nat} {ti : Title} (hti : s.title? th = some ti)
include hti

theorem discardLast_none (hs : (s.port p).sequence = .none) : discardLast p th take index s = refuse .sequence s := by
  rw [discardLast, withTitle_some hti, hs]

theorem discardLast_bothSet {x y z : Nat} (hs : (s.port p).sequence = .bothSet x y z) :
    discardLast p th take index s = refuse .sequence s := by
  rw [discardLast, withTitle_some hti, hs]

section
variable {marked first : Nat} (hs : (s.port p).sequence = .firstSet marked first)
include hs

theorem discardLast_noTake (ht : s.take? th take = none) : discardLast p th take index s = refuse .badHandle s := by
  rw [discardLast, withTitle_some hti, hs]
  exact withTake_none ht

variable {t : Take} (ht : s.take? th take = some t)
include ht

theorem discardLast_sequence (h : take ≠ marked ∨ index < first) : discardLast p th take index s = refuse .sequence s := by
  rw [discardLast, withTitle_some hti, hs]
  refine (withTake_some ht).trans ?_
  by_cases hm : take = marked
  · rw [if_neg (not_not.2 hm), if_pos (h.resolve_left (not_not.2 hm))]
  · rw [if_pos hm]

theorem discardLast_range (hm : take = marked) (hf : first ≤ index) (hi : t.groups.length ≤ index) :
    discardLast p th take index s = refuse .range s := by
  rw [discardLast, withTitle_some hti, hs]
  refine (withTake_some ht).trans ?_
  rw [if_neg (not_not.2 hm), if_neg (Nat.not_lt.2 hf), if_pos hi]

theorem discardLast_taken (hm : take = marked) (hf : first ≤ index) (hi : index < t.groups.length) :
    discardLast p th take index s =
      accept (runResults s.takeMem t take first index) (s.setSequence p (.bothSet take first index)) := by
  rw [discardLast, withTitle_some hti, hs]
  refine (withTake_some ht).trans ?_
  rw [if_neg (not_not.2 hm), if_neg (Nat.not_lt.2 hf), if_neg (Nat.not_le.2 hi)]

end

end

/-! ### The judgement of R70 -/

theorem Take.isCurrent_eq (t : Take) (i : Nat) : t.isCurrent i = decide (t.state = .recording ∧ i + 1 = t.groups.length) :=
  (Bool.decide_and ..).symm

namespace TakeMemory

section
variable {m : TakeMemory} {t : Take} {i : Nat}

theorem judge_absent (h : t.groups[i]? = none) : m.judge t i = .hole := by
  rw [judge, h]
  rfl

theorem judge_hole (h : t.groups[i]? = some none) : m.judge t i = .hole := by
  rw [judge, h]
  rfl

theorem judge_group {g : Nat} (h : t.groups[i]? = some (some g)) :
    m.judge t i = if 0 < (m.group g).refs then .referenced else if t.isCurrent i then .current else .discarded := by
  rw [judge, h]
  rfl

end

/-- R70: the four findings, in the words of the rule. -/
theorem judge_spec (m : TakeMemory) (t : Take) :
    (fun i => decide (m.judge t i = .hole)) = (fun i => match t.groups[i]? with
      | some (some _) => false
      | _ => true) ∧
    (fun i => decide (m.judge t i = .referenced)) = (fun i => match t.groups[i]? with
      | some (some g) => decide (0 < (m.group g).refs)
      | _ => false) ∧
    (fun i => decide (m.judge t i = .current)) = (fun i => match t.groups[i]? with
      | some (some g) => decide ((m.group g).refs = 0) && decide (t.state = .recording ∧ i + 1 = t.groups.length)
      | _ => false) ∧
    (fun i => decide (m.judge t i = .discarded)) = (fun i => match t.groups[i]? with
      | some (some g) => decide ((m.group g).refs = 0) && !decide (t.state = .recording ∧ i + 1 = t.groups.length)
      | _ => false) := by
  refine ⟨funext fun i => ?_, funext fun i => ?_, funext fun i => ?_, funext fun i => ?_⟩
  all_goals
    rcases h : t.groups[i]? with _ | _ | g
    · rw [judge_absent h]
      rfl
    · rw [judge_hole h]
      rfl
    · rw [judge_group h, Take.isCurrent_eq]
      dsimp only
      cases decide (t.state = .recording ∧ i + 1 = t.groups.length) <;> cases (m.group g).refs <;> rfl

end TakeMemory

/-- R68: the three numbers of the reply, in the words of the rule, when the run lies in the group list. -/
theorem runResults_eq {m : TakeMemory} {t : Take} {take first last : Nat} (h : last < t.groups.length) :
    runResults m t take first last = le 2 take ++ (le 2 first ++ (le 2 last ++
      (le 2 ((List.range' first (last + 1 - first)).countP (fun i => decide (t.groups[i]? = some none))) ++
      (le 2 ((List.range' first (last + 1 - first)).countP (fun i => match t.groups[i]? with
        | some (some g) => decide (0 < (m.group g).refs)
        | _ => false)) ++
      le 2 ((List.range' first (last + 1 - first)).countP (fun i => match t.groups[i]? with
        | some (some _) => decide (t.state = .recording ∧ i + 1 = t.groups.length)
        | _ => false)))))) := by
  obtain ⟨hholes, hreferenced, -, -⟩ := m.judge_spec t
  have hhole : (runIndexes first last).countP (fun i => decide (m.judge t i = .hole)) =
      (runIndexes first last).countP (fun i => decide (t.groups[i]? = some none)) := by
    rw [hholes]
    refine List.countP_congr fun i hi => ?_
    rw [runIndexes, List.mem_range'_1] at hi
    rcases hg : t.groups[i]? with _ | _ | g
    · rw [List.getElem?_eq_none_iff] at hg
      omega
    · simp
    · simp
  have hcurrent : ∀ i, (((t.groups[i]?).join).isSome && t.isCurrent i) = match t.groups[i]? with
      | some (some _) => decide (t.state = .recording ∧ i + 1 = t.groups.length)
      | _ => false := by
    intro i
    rw [Take.isCurrent_eq]
    rcases t.groups[i]? with _ | _ | g <;> rfl
  rw [runResults, hhole, hreferenced, funext hcurrent]
  rfl

end Sys2Proof.Machine

namespace Sys2Proof.Settled

open Sys2Proof.Machine

/-- Settles O40: the checks of R67 and R68 one after the other. -/
theorem discardMarks : Obligations.DiscardMarks := by
  unfold Obligations.DiscardMarks
  intro p tag th take idx s ti h ha hti
  have hrefused : ∀ st, st ≠ .ok → discardLast p th take idx (s.heardOn p 4) = refuse st (s.heardOn p 4) →
      exec (.discardLast p tag th take idx) s = .next (s.answered p tag 4 (s.marked p) { status := st }) :=
    fun st hst hh => exec_discard_refused (r := .discardLast th take idx) rfl h ha rfl rfl hst hh
  refine ⟨fun t ht => ⟨fun hi => ?_, fun e he => ?_⟩, fun hs => ?_, fun x y z hs => ?_, fun x first hs => ⟨fun ht => ?_,
    fun t ht => ⟨fun hm => ?_, fun hm hle hi => ?_, fun hm hle hi => ?_⟩⟩⟩
  · exact exec_discard_refused (r := .discardFirst th take idx) rfl h ha rfl rfl (by decide)
      (discardFirst_range (s := s.heardOn p 4) hti ht hi)
  · have hexec := exec_discard_marks (i := .discardFirst p tag th take idx) (r := .discardFirst th take idx) rfl h ha rfl rfl
      (discardFirst_taken (s := s.heardOn p 4) hti ht he)
    simp only [entryBytes_eq, isDiscardFirst, Bool.and_true] at hexec
    exact hexec
  · exact hrefused _ (by decide) (discardLast_none hti ((s.heardOn_sequence p 4).trans hs))
  · exact hrefused _ (by decide) (discardLast_bothSet hti ((s.heardOn_sequence p 4).trans hs))
  · exact hrefused _ (by decide) (discardLast_noTake hti ((s.heardOn_sequence p 4).trans hs) ht)
  · exact hrefused _ (by decide) (discardLast_sequence hti ((s.heardOn_sequence p 4).trans hs) ht hm)
  · exact hrefused _ (by decide) (discardLast_range hti ((s.heardOn_sequence p 4).trans hs) ht hm hle hi)
  · have hexec := exec_discard_marks (i := .discardLast p tag th take idx) (r := .discardLast th take idx) rfl h ha rfl rfl
      (discardLast_taken (s := s.heardOn p 4) hti ((s.heardOn_sequence p 4).trans hs) ht hm hle hi)
    simp only [runResults_eq hi, isDiscardFirst, Bool.and_false] at hexec
    exact hexec

end Sys2Proof.Settled
end


section
/-! SUPPORT. R69 to R71: the run of a taken DISCARD-COMMIT as a whole: the groups that go, the take they leave, and the counts of the
reply; and the part after the command. -/

namespace Sys2Proof.Machine

/-! ### Tables -/

theorem Tab.put_put {α : Type} (t : Tab α) (k : Nat) (v w : α) : Tab.put (Tab.put t k v) k w = Tab.put t k w := by
  induction t with
  | nil => simp [Tab.put]
  | cons e t ih =>
    obtain ⟨j, x⟩ := e
    rcases Nat.lt_trichotomy k j with h | rfl | h
    · simp [Tab.put, h]
    · simp [Tab.put]
    · simp [Tab.put, h.not_gt, h.ne, ih]

theorem Tab.put_look {α : Type} {t : Tab α} {k : Nat} {v : α} (hw : Tab.wf t = true) (h : Tab.look t k = some v) :
    Tab.put t k v = t := by
  induction t with
  | nil => cases h
  | cons e t ih =>
    obtain ⟨j, x⟩ := e
    obtain ⟨ht, ha⟩ := Tab.wf_cons hw
    rw [Tab.look] at h
    split at h
    · next hj =>
      cases h
      simp [Tab.put, hj]
    · next hj =>
      have hlt : j < k := ha _ (Tab.mem_of_look h)
      simp [Tab.put, hlt.not_gt, hj, ih ht h]

/-! ### The run -/

/-- Takes that differ in no entry, and in nothing but their entries. -/
theorem Take.ext_groups {t u : Take} (h : ∀ j : Nat, t.groups[j]? = u.groups[j]?) (hr : { t with groups := u.groups } = u) : t = u := by
  rw [← hr, ← List.ext_getElem? h]

namespace TakeMemory

/-- R70: the groups of a take that the judgement of some of its indexes discards, in the order of the indexes. -/
def goneAt (m : TakeMemory) (t : Take) (is : List Nat) : List Nat :=
  is.filterMap (fun i => if m.judge t i = .discarded then (t.groups[i]?).join else none)

/-- R70: the take after their entries have become holes. -/
def holedAt (m : TakeMemory) (t : Take) (is : List Nat) : Take :=
  { t with groups := t.groups.mapIdx (fun i e => if i ∈ is ∧ m.judge t i = .discarded then none else e) }

theorem getElem_holedAt (m : TakeMemory) (t : Take) (is : List Nat) (j : Nat) : (m.holedAt t is).groups[j]? =
    if j ∈ is ∧ m.judge t j = .discarded then (t.groups[j]?).map fun _ => none else t.groups[j]? := by
  rw [holedAt, List.getElem?_mapIdx]
  split <;> cases t.groups[j]? <;> rfl

section
variable {m : TakeMemory} {t : Take}

/-- An index that is not discarded makes no hole. -/
theorem holedAt_cons_kept {i : Nat} (hj : m.judge t i ≠ .discarded) (is : List Nat) : m.holedAt t (i :: is) = m.holedAt t is := by
  refine Take.ext_groups (fun j => ?_) rfl
  have hiff : (j ∈ i :: is ∧ m.judge t j = .discarded) ↔ (j ∈ is ∧ m.judge t j = .discarded) := by
    rw [List.mem_cons]
    exact and_congr_left fun h => or_iff_right fun he => hj (he ▸ h)
  simp only [getElem_holedAt, hiff]

/-- Discarding one entry changes the judgement of no other. -/
theorem judge_after {m' : TakeMemory} (hr : ∀ g, (m'.group g).refs = (m.group g).refs) {i j : Nat} (hne : i ≠ j) :
    m'.judge { t with groups := t.groups.set i none } j = m.judge t j := by
  have hcurrent : Take.isCurrent { t with groups := t.groups.set i none } j = t.isCurrent j := by
    simp [Take.isCurrent]
  simp only [judge, List.getElem?_set_ne hne, hcurrent, hr]

end

/-- R70: the run of a taken commit. The groups that go are released in the order of their indexes, and their entries become holes. -/
theorem foldl_discardAt {m : TakeMemory} {take : Nat} {t : Take} {is : List Nat} (hw : Tab.wf m.takes = true)
    (ht : Tab.look m.takes take = some t) (hn : is.Nodup) : is.foldl (discardAt take) m =
      { m.releaseAll (m.goneAt t is) with takes := Tab.put m.takes take (m.holedAt t is) } := by
  induction is generalizing m t with
  | nil =>
    have hsame : m.holedAt t [] = t := Take.ext_groups (fun j => by simp [getElem_holedAt]) rfl
    rw [hsame, Tab.put_look hw ht]
    rfl
  | cons i is ih =>
    obtain ⟨hi, hn⟩ := List.nodup_cons.1 hn
    rw [List.foldl_cons]
    by_cases hj : m.judge t i = .discarded
    · obtain ⟨g, hg, -, -⟩ := judge_discarded.1 hj
      have hrefs : ∀ x, (((m.release g).setTake take { t with groups := t.groups.set i none }).group x).refs = (m.group x).refs :=
        m.release_refs g
      have hgone : goneAt ((m.release g).setTake take { t with groups := t.groups.set i none })
          { t with groups := t.groups.set i none } is = m.goneAt t is :=
        List.filterMap_congr fun j hjs => by
          have hne : i ≠ j := fun he => hi (he ▸ hjs)
          simp only [judge_after hrefs hne, List.getElem?_set_ne hne]
      have hholed : holedAt ((m.release g).setTake take { t with groups := t.groups.set i none })
          { t with groups := t.groups.set i none } is = m.holedAt t (i :: is) := by
        refine Take.ext_groups (fun j => ?_) rfl
        rw [getElem_holedAt, getElem_holedAt]
        by_cases hne : i = j
        · subst hne
          simp [hi, hj, (List.getElem?_eq_some_iff.1 hg).1]
        · simp [judge_after hrefs hne, List.getElem?_set_ne hne, Ne.symm hne]
      have hfirst : m.goneAt t (i :: is) = g :: m.goneAt t is := by
        simp [goneAt, hj, hg]
      rw [discardAt_discarded ht hj hg, ih (Tab.wf_put _ _ (by rwa [release_takes])) (Tab.look_put_same ..) hn, hgone, hholed,
        hfirst, releaseAll_cons, setTake, releaseAll_withTakes, Tab.put_put, release_takes]
    · have hfirst : m.goneAt t (i :: is) = m.goneAt t is := by
        simp [goneAt, hj]
      rw [discardAt_kept ht hj, ih hw ht hn, holedAt_cons_kept hj, hfirst]

/-! ### The groups that go -/

section
variable {m : TakeMemory} {t : Take} {is : List Nat}

theorem mem_goneAt {g : Nat} : g ∈ m.goneAt t is ↔ ∃ i ∈ is, m.judge t i = .discarded ∧ t.groups[i]? = some (some g) := by
  rw [goneAt, List.mem_filterMap]
  refine exists_congr fun i => and_congr_right fun _ => ?_
  split
  · next h => simp [h, Option.join_eq_some_iff]
  · next h => simp [h]

theorem refs_of_mem_goneAt {g : Nat} (h : g ∈ m.goneAt t is) : (m.group g).refs = 0 := by
  obtain ⟨i, -, hj, hi⟩ := mem_goneAt.1 h
  obtain ⟨g', hi', hr, -⟩ := judge_discarded.1 hj
  cases hi.symm.trans hi'
  exact hr

/-- R42: each of them is there once, and none is in the bad set. -/
theorem Grouped.goneAt_spec (h : m.Grouped) {take : Nat} (ht : Tab.look m.takes take = some t) (hn : is.Nodup) :
    (m.goneAt t is).Nodup ∧ ∀ g ∈ m.goneAt t is, g ∉ m.bad := by
  have hplaced : ∀ {i : Nat} {g : Nat}, t.groups[i]? = some (some g) → (g, Place.owned take i) ∈ m.placed :=
    fun hi => mem_placed.2 ⟨t, Tab.mem_of_look ht, hi⟩
  refine ⟨hn.filterMap fun i j g hi hj => ?_, fun g hg hb => ?_⟩
  · have hentry : ∀ {k : Nat}, g ∈ (if m.judge t k = .discarded then (t.groups[k]?).join else none) →
        t.groups[k]? = some (some g) := fun hk => by
      split at hk
      · exact Option.join_eq_some_iff.1 hk
      · cases hk
    cases h.placed_inj (hplaced (hentry hi)) (hplaced (hentry hj))
    rfl
  · obtain ⟨i, -, -, hi⟩ := mem_goneAt.1 hg
    cases h.placed_inj (hplaced hi) (mem_placed.2 hb : (g, Place.bad) ∈ m.placed)

/-- R41, R45, R70: the record of a group after the run, by the place that the group goes to. -/
theorem Grouped.group_discarded (h : m.Grouped) {take : Nat} (ht : Tab.look m.takes take = some t) (hn : is.Nodup) {g : Nat}
    (hg : g < m.groups.length) : (m.releaseAll (m.goneAt t is)).group g =
      if g ∈ (m.goneAt t is).filter (fun g => (m.group g).faulted) then ⟨.bad, none, none, 0, false⟩
      else if g ∈ (m.goneAt t is).filter (fun g => !(m.group g).faulted) then ⟨.dirty, none, none, 0, false⟩
      else m.group g := by
  obtain ⟨hnodup, -⟩ := h.goneAt_spec ht hn
  rw [group_releaseAll m hnodup hg]
  simp only [List.mem_filter]
  by_cases hm : g ∈ m.goneAt t is
  · cases hf : (m.group g).faulted <;> simp [hm, freed, hf, refs_of_mem_goneAt hm]
  · simp [hm]

end

/-! ### In the words of the rules -/

section
variable {m : TakeMemory} {t : Take} {goes : Nat → Bool} (h : (fun i => decide (m.judge t i = .discarded)) = goes)
include h

theorem goneAt_eq (is : List Nat) : is.filterMap (fun i => if goes i then (t.groups[i]?).join else none) = m.goneAt t is := by
  subst h
  simp [goneAt]

theorem holedAt_eq (first last : Nat) :
    { t with groups := t.groups.mapIdx (fun i e => if first ≤ i ∧ i ≤ last ∧ goes i = true then none else e) } =
      m.holedAt t (runIndexes first last) := by
  subst h
  have hrun : ∀ i, i ∈ runIndexes first last ↔ first ≤ i ∧ i ≤ last := fun i => by
    rw [runIndexes, List.mem_range'_1]
    omega
  simp [holedAt, hrun, and_assoc]

end

/-! ### The counts of the reply -/

theorem findings_discarded (m : TakeMemory) (t : Take) (first last : Nat) :
    findings m t first last .discarded = (m.goneAt t (runIndexes first last)).length := by
  rw [findings, goneAt, List.length_filterMap_eq_countP]
  refine List.countP_congr fun i _ => ?_
  by_cases hj : m.judge t i = .discarded
  · obtain ⟨g, hg, -, -⟩ := judge_discarded.1 hj
    simp [hj, hg]
  · simp [hj]

theorem discardedBad_eq (m : TakeMemory) (t : Take) (first last : Nat) :
    discardedBad m t first last = ((m.goneAt t (runIndexes first last)).filter (fun g => (m.group g).faulted)).length := by
  rw [discardedBad, goneAt, ← List.countP_eq_length_filter, List.countP_filterMap]
  refine List.countP_congr fun i _ => ?_
  by_cases hj : m.judge t i = .discarded
  · obtain ⟨g, hg, -, -⟩ := judge_discarded.1 hj
    simp [hj, hg]
  · simp [hj]

/-! ### The end of a discard -/

section
variable {m : TakeMemory} {take : Nat} {t : Take} (hw : Tab.wf m.takes = true) (ht : Tab.look m.takes take = some t) (first last : Nat)
include hw ht

theorem discardRun_eq : m.discardRun take first last = { m.releaseAll (m.goneAt t (runIndexes first last)) with
    takes := Tab.put m.takes take (m.holedAt t (runIndexes first last)) } :=
  foldl_discardAt hw ht List.nodup_range'

/-- R71: the take leaves the table when it is not RECORDING and has holes alone. -/
theorem emptied_discardRun : (m.discardRun take first last).emptied take =
    (decide (t.state ≠ .recording) && decide ((m.holedAt t (runIndexes first last)).owned = [])) := by
  have hnil : ∀ l : List Nat, l.isEmpty = decide (l = []) := fun l => Bool.eq_iff_iff.2 (by simp)
  rw [discardRun_eq hw ht, emptied, ← hnil]
  dsimp only
  rw [Tab.look_put_same]
  rfl

end

end TakeMemory

/-! ### DISCARD-COMMIT -/

section
variable {s : State} {p : Port} {th : Nat} {ti : Title} (hti : s.title? th = some ti) (hst : ti.state = .opened)
include hti hst

theorem discardCommit_none (hs : (s.port p).sequence = .none) : discardCommit p th s = refuse .sequence s := by
  rw [discardCommit, withTitle_some hti, if_neg (not_not.2 hst), hs]

theorem discardCommit_firstSet {x y : Nat} (hs : (s.port p).sequence = .firstSet x y) :
    discardCommit p th s = refuse .sequence s := by
  rw [discardCommit, withTitle_some hti, if_neg (not_not.2 hst), hs]

section
variable {take first last : Nat} (hs : (s.port p).sequence = .bothSet take first last)
include hs

theorem discardCommit_noTake (ht : s.take? th take = none) : discardCommit p th s = refuse .badHandle s := by
  rw [discardCommit, withTitle_some hti, if_neg (not_not.2 hst), hs]
  exact withTake_none ht

theorem discardCommit_taken {k : Take} (ht : s.take? th take = some k) : discardCommit p th s =
    accept (commitResults s.takeMem k first last) (s.commitDiscard p take first last) (commitFlags s.takeMem k take first last) := by
  rw [discardCommit, withTitle_some hti, if_neg (not_not.2 hst), hs]
  exact withTake_some ht

end

end

/-- R70 to R72: a discard changes take memory and sequences alone. -/
theorem State.commitDiscard_blocks (s : State) (p : Port) (take first last : Nat) : s.commitDiscard p take first last = { s with
    takeMem := { s.takeMem.discardRun take first last with
      takes := if (s.takeMem.discardRun take first last).emptied take then Tab.drop (s.takeMem.discardRun take first last).takes take
        else (s.takeMem.discardRun take first last).takes }
    ports := if (s.takeMem.discardRun take first last).emptied take then (s.setSequence p .none).ports.dropMarks take
      else (s.setSequence p .none).ports } := by
  by_cases he : (s.takeMem.discardRun take first last).emptied take = true
  · simp only [he, if_true]
    exact if_pos he
  · simp only [he]
    exact if_neg he

theorem State.commitDiscard_port_same (s : State) (p : Port) (take first last : Nat) :
    (s.commitDiscard p take first last).port p = { s.port p with sequence := .none } := by
  have hport : (s.setSequence p .none).ports.get p = { s.port p with sequence := .none } := State.port_changePort_same ..
  rw [State.commitDiscard_blocks, State.port]
  dsimp only
  split
  · rw [Ports.get_dropMarks, hport]
    simp
  · exact hport

theorem State.commitDiscard_port_other (s : State) {p q : Port} (hq : q ≠ p) (take first last : Nat) :
    (s.commitDiscard p take first last).port q = { s.port q with
      sequence := if (s.takeMem.discardRun take first last).emptied take = true ∧ (s.port q).sequence.take? = some take then .none
        else (s.port q).sequence } := by
  have hport : (s.setSequence p .none).ports.get q = s.port q := State.port_changePort_other _ _ hq
  rw [State.commitDiscard_blocks, State.port]
  dsimp only
  split
  · next he => simp only [Ports.get_dropMarks, hport, he, true_and]
  · next he => simp only [hport, he, Bool.false_eq_true, false_and, if_false]

/-- The part after a taken DISCARD-COMMIT with its reply, as the taking of a request makes it. -/
def State.discarded (s : State) (p : Port) (tag : Byte) (take first last : Nat) (res : Result) : State :=
  (((s.heardOn p 0).commitDiscard p take first last).answer p tag false res).driveAttn

section
variable (s : State) (p : Port) (tag : Byte) (take first last : Nat) (res : Result)

/-- Every block but take memory and the ports is as it was. -/
theorem State.discarded_eq : s.discarded p tag take first last res = { s with
    takeMem := { s.takeMem.discardRun take first last with
      takes := if (s.takeMem.discardRun take first last).emptied take then Tab.drop (s.takeMem.discardRun take first last).takes take
        else (s.takeMem.discardRun take first last).takes }
    ports := (s.discarded p tag take first last res).ports } := by
  unfold State.discarded
  rw [State.commitDiscard_blocks]
  rfl

theorem State.discarded_port_same : (s.discarded p tag take first last res).port p = { s.port p with
    sequence := .none
    state := .replyReady
    reply := some ⟨res.status, tag, { res.flags with discardReset := false }, res.results⟩
    span := none
    sent := 0x10#8 :: List.replicate 6 0#8
    attn := ((s.discarded p tag take first last res).port p).attn } := by
  rw [State.discarded, State.port_driveAttn]
  simp only [State.answer, State.port_changePort_same, State.commitDiscard_port_same, State.heardOn]

theorem State.discarded_port_other {q : Port} (hq : q ≠ p) : (s.discarded p tag take first last res).port q = { s.port q with
    sequence := if (s.takeMem.discardRun take first last).emptied take = true ∧ (s.port q).sequence.take? = some take then .none
      else (s.port q).sequence
    attn := ((s.discarded p tag take first last res).port q).attn } := by
  rw [State.discarded, State.port_driveAttn]
  simp only [State.answer, State.port_changePort_other _ _ hq, State.commitDiscard_port_other _ hq, State.heardOn]
  rfl

end
/-- R69 to R71: what a taken DISCARD-COMMIT leaves: every block, the port that sent it, and the others. -/
theorem exec_discardCommit {s : State} {p : Port} (tag : Byte) {th take first last : Nat} {ti : Title} {k : Take} {gone : List Nat}
    {left : Take} {emptied : Bool} (h : s.listens p) (ha : s.allows p .take) (hti : s.title? th = some ti) (hst : ti.state = .opened)
    (hs : (s.port p).sequence = .bothSet take first last) (ht : s.take? th take = some k) (hw : Tab.wf s.takeMem.takes = true)
    (hgone : gone = s.takeMem.goneAt k (runIndexes first last)) (hleft : left = s.takeMem.holedAt k (runIndexes first last))
    (hemptied : emptied = (decide (k.state ≠ .recording) && decide (left.owned = []))) :
    ∃ u, exec (.discardCommit p tag th) s = .next u ∧
      u = { s with
        takeMem := { s.takeMem.releaseAll gone with
          takes := if emptied then Tab.drop s.takeMem.takes take else Tab.put s.takeMem.takes take left }
        ports := u.ports } ∧
      u.port p = { s.port p with
        sequence := .none
        state := .replyReady
        reply := some ⟨.ok, tag, { skipped := (commitFlags s.takeMem k take first last).skipped, freed := emptied },
          commitResults s.takeMem k first last⟩
        span := none
        sent := 0x10#8 :: List.replicate 6 0#8
        attn := (u.port p).attn } ∧
      (∀ q, q ≠ p → u.port q = { s.port q with
        sequence := if emptied = true ∧ (s.port q).sequence.take? = some take then .none else (s.port q).sequence
        attn := (u.port q).attn }) ∧
      u.driveAttn = u := by
  obtain ⟨hlook, -⟩ := State.take_look ht
  have hend : (s.takeMem.discardRun take first last).emptied take = emptied := by
    rw [TakeMemory.emptied_discardRun hw hlook, hemptied, hleft]
  have hflags : commitFlags s.takeMem k take first last =
      { skipped := (commitFlags s.takeMem k take first last).skipped, freed := emptied } := by
    rw [← hend]
    rfl
  have htaken : discardCommit p th (s.heardOn p 0) = accept (commitResults s.takeMem k first last)
      ((s.heardOn p 0).commitDiscard p take first last) (commitFlags s.takeMem k take first last) :=
    discardCommit_taken (s := s.heardOn p 0) hti hst ((s.heardOn_sequence p 0).trans hs) ht
  rw [hflags] at htaken
  have hexec := exec_discard_taken (i := .discardCommit p tag th) (r := .discardCommit th) rfl h ha rfl rfl htaken
  simp only [isDiscardFirst, Bool.and_false] at hexec
  refine ⟨s.discarded p tag take first last _, hexec, ?_, ?_, fun q hq => ?_, State.driveAttn_driveAttn _⟩
  · refine (s.discarded_eq p tag take first last _).trans ?_
    rw [hend, TakeMemory.discardRun_eq hw hlook, ← hgone, ← hleft, drop_put]
  · exact s.discarded_port_same p tag take first last _
  · refine (s.discarded_port_other p tag take first last _ hq).trans ?_
    rw [hend]

end Sys2Proof.Machine

namespace Sys2Proof.Settled

open Sys2Proof.Machine

/-- Settles O41: the checks of R69; then `exec_discardCommit` gives each block, `judge_spec` the findings in the words of the rule, and
`GroupLaw` that the groups that go are there once and in no other place. -/
theorem discardCommit : Obligations.DiscardCommit := by
  unfold Obligations.DiscardCommit
  intro p tag th s ti h ha hti hst
  have hrefused : ∀ st, st ≠ .ok → Machine.discardCommit p th (s.heardOn p 0) = refuse st (s.heardOn p 0) →
      exec (.discardCommit p tag th) s = .next (s.answered p tag 0 (s.marked p) { status := st }) :=
    fun st hne hh => exec_discard_refused (r := .discardCommit th) rfl h ha rfl rfl hne hh
  refine ⟨fun hs => ?_, fun x y hs => ?_, fun take first last hs => ⟨fun ht => ?_, fun k ht hg => ?_⟩⟩
  · exact hrefused _ (by decide) (discardCommit_none hti hst ((s.heardOn_sequence p 0).trans hs))
  · exact hrefused _ (by decide) (discardCommit_firstSet hti hst ((s.heardOn_sequence p 0).trans hs))
  · exact hrefused _ (by decide) (discardCommit_noTake hti hst ((s.heardOn_sequence p 0).trans hs) ht)
  obtain ⟨hlook, -⟩ := State.take_look ht
  obtain ⟨hholes, hreferenced, hcurrent, hgoes⟩ := s.takeMem.judge_spec k
  have hgone := TakeMemory.goneAt_eq hgoes (runIndexes first last)
  have hleft := TakeMemory.holedAt_eq hgoes first last
  obtain ⟨t, hexec, heq, hself, hother, hattn⟩ := exec_discardCommit tag h ha hti hst hs ht hg.1 hgone hleft rfl
  refine ⟨t, hexec, ?_⟩
  intro current run goes gone toDirty toBad groups emptied referenced asCurrent
  obtain ⟨hnodup, hbad⟩ := TakeMemory.Grouped.goneAt_spec hg hlook (is := runIndexes first last) List.nodup_range'
  have hmem : t.takeMem = { s.takeMem.releaseAll gone with
    takes := if emptied then Tab.drop s.takeMem.takes take else Tab.put s.takeMem.takes take { k with groups := groups } } :=
    congrArg State.takeMem heq
  have hreply : commitResults s.takeMem k first last = le 2 gone.length ++ (le 2 referenced ++ (le 2 asCurrent ++
      (le 2 (run.countP (fun i => match k.groups[i]? with
        | some (some _) => false
        | _ => true)) ++ le 2 toBad.length))) := by
    rw [commitResults, TakeMemory.findings_discarded, TakeMemory.discardedBad_eq, ← hgone, findings, findings, findings, hholes,
      hreferenced, hcurrent]
    rfl
  have hskipped : (commitFlags s.takeMem k take first last).skipped = decide (0 < referenced + asCurrent) := by
    rw [commitFlags, findings, findings, hreferenced, hcurrent]
    rfl
  rw [hreply, hskipped] at hself
  rw [← hgone] at hnodup hbad
  refine ⟨?_, ?_, ?_, ?_, fun g hlt => ?_, ?_, ?_, ?_, ?_, (congrArg State.titles heq :), (congrArg State.chapters heq :),
    (congrArg State.queue heq :), (congrArg State.lanes heq :), (congrArg State.wheel heq :), (congrArg State.rendMem heq :),
    (congrArg State.holdTable heq :), (congrArg State.cause heq :), (congrArg State.resetHeld heq :),
    (congrArg State.pending heq :), ?_, fun q => ?_, fun q hq => ?_, fun q => ?_, ?_⟩
  · rw [hmem]
  · rw [hmem]
    exact TakeMemory.releaseAll_dirty _ hnodup
  · rw [hmem]
    exact TakeMemory.releaseAll_bad _ hnodup hbad
  · rw [hmem]
    exact TakeMemory.releaseAll_length ..
  · have hgroup := TakeMemory.Grouped.group_discarded hg hlook (is := runIndexes first last) List.nodup_range' hlt
    rw [← hgone] at hgroup
    rw [hmem]
    exact hgroup
  · rw [hmem]
    exact TakeMemory.releaseAll_clean ..
  · rw [hmem]
    exact TakeMemory.releaseAll_engine ..
  · rw [hmem]
    exact TakeMemory.releaseAll_scrub ..
  · rw [hmem]
    exact TakeMemory.releaseAll_mem ..
  · rw [hself]
  · by_cases hq : q = p
    · subst hq
      rw [hself]
      exact ⟨rfl, rfl, rfl, rfl, rfl, rfl, rfl⟩
    · rw [hother q hq]
      exact ⟨rfl, rfl, rfl, rfl, rfl, rfl, rfl⟩
  · rw [hother q hq]
    exact ⟨rfl, rfl, rfl, rfl, rfl⟩
  · rw [hattn]
  · rw [hself]
    exact ⟨rfl, rfl, rfl, rfl⟩

end Sys2Proof.Settled
end

section
/-! SUPPORT. R76, R77, R83, R84: the laws of `State.RenderLaw` one by one, on top of the places of the chapters (`State.SpotLaw`);
and what keeps the law on the passes of the lanes and the law on the count. -/

namespace Sys2Proof.Machine

/-! ### The laws, one by one -/

/-- R84: the record of a chapter that a lane holds has the state of the lane's pass. -/
def State.StageLaw (s : State) : Prop :=
  ∀ i r k, (s.lanes.get i).render = some r → s.chapter? r.chapter = some k → k.state = r.stage.chapterState

/-- The chapters that wait for a lane or are in one. -/
def State.waiting (s : State) : List ChapterId := s.queue.rush ++ (s.queue.normal ++ s.laneChapters)

/-- R77: the count is the number of chapters that wait for a lane or are in one, at most 64. -/
def State.QueueLaw (s : State) : Prop := s.queue.count = s.waiting.length ∧ s.queue.count ≤ 64

/-- `State.RenderLaw` (see `State.renders_iff`), law by law. -/
def State.Renders (s : State) : Prop := Tab.wf s.chapters = true ∧ s.SpotLaw ∧ s.StageLaw ∧ s.QueueLaw

/-- How often chapter `c` waits for a lane or is in one, by its record: 0 or 1. -/
def State.waits (s : State) (c : ChapterId) : Nat := if (s.spotOf c).isSome then 1 else 0

section
variable {s t : State} {c : ChapterId} {k : Chapter}

theorem State.SpotLaw.count_waiting (h : s.SpotLaw) (c : ChapterId) : s.waiting.count c = s.waits c := by
  have hsum : s.waiting.count c =
      (s.standing (.fifo .rush)).count c + ((s.standing (.fifo .normal)).count c + (s.standing .lane).count c) := by
    simp only [State.waiting, List.count_append]
    rfl
  rw [hsum, h, h, h, State.waits]
  cases s.spotOf c with
  | none => rfl
  | some x => match x with | .fifo .rush | .fifo .normal | .lane => rfl

theorem State.SpotLaw.mem_standing (h : s.SpotLaw) (hi : c.index ≤ 127) (hk : s.chapter? c = some k) (x : Spot) :
    k.spot = some x ↔ c ∈ s.standing x := by
  rw [← List.count_pos_iff, h.count_record hi hk]
  split <;> simp [*]

theorem State.renders_iff : s.Renders ↔ s.RenderLaw := by
  have hlength : s.waiting.length = s.queue.rush.length + s.queue.normal.length + s.laneChapters.length := by
    simp only [State.waiting, List.length_append, Nat.add_assoc]
  constructor
  · rintro ⟨hwf, hspot, hstage, hcount, h64⟩
    have hrecord : ∀ c ∈ s.waiting, c.index ≤ 127 ∧ ∃ k, s.chapter? c = some k := by
      intro c hc
      have hpos := List.count_pos_iff.2 hc
      rw [hspot.count_waiting, State.waits] at hpos
      cases hx : s.spotOf c with
      | none => simp [hx] at hpos
      | some x =>
        obtain ⟨hi, k, hk, -⟩ := State.spotOf_some hx
        exact ⟨hi, k, hk⟩
    have hnodup : s.waiting.Nodup := by
      refine List.nodup_iff_count_le_one.2 fun c => ?_
      rw [hspot.count_waiting, State.waits]
      split <;> omega
    refine ⟨hwf, hnodup, fun c hc => (hrecord c hc).1, fun c k hi hk => ⟨?_, ?_, ?_⟩, fun c hc => ?_, hstage,
      hcount.trans hlength, h64⟩
    · exact Chapter.spot_fifo.symm.trans (hspot.mem_standing hi hk (.fifo .rush))
    · exact Chapter.spot_fifo.symm.trans (hspot.mem_standing hi hk (.fifo .normal))
    · exact Chapter.spot_lane.symm.trans (hspot.mem_standing hi hk .lane)
    · exact Option.ne_none_iff_exists'.2 (hrecord c hc).2
  · intro h
    obtain ⟨hwf, -, -, -, -, hstage, hcount, h64⟩ := id h
    exact ⟨hwf, h.spots, hstage, hcount.trans hlength.symm, h64⟩

theorem State.Renders.spots (h : s.Renders) : s.SpotLaw := h.2.1

theorem State.Renders.counted (h : s.Renders) : s.QueueLaw := h.2.2.2

/-! ### The count -/

theorem State.waits_record (hi : c.index ≤ 127) (hk : s.chapter? c = some k) : s.waits c = if k.state.busy then 1 else 0 := by
  rw [State.waits, State.spotOf_record hi hk]
  have hbusy := Chapter.spot_none (k := k)
  cases hs : k.spot <;> cases hb : k.state.busy <;> simp_all

theorem State.waits_none (hk : s.chapter? c = none) : s.waits c = 0 := by
  rw [State.waits, State.spotOf, hk, Option.bind_none, ite_self]
  rfl

/-- A change of one record leaves how often the other chapters wait. -/
theorem State.waits_other (hi : c.index ≤ 127) (hrec : ∀ n, n ≠ c.key → Tab.look t.chapters n = Tab.look s.chapters n)
    {d : ChapterId} (hd : d ≠ c) : t.waits d = s.waits d := by
  unfold State.waits State.spotOf State.chapter?
  by_cases hdi : d.index ≤ 127
  · rw [hrec _ fun hk => hd (ChapterId.key_inj hdi hi hk)]
  · rw [if_neg hdi, if_neg hdi]

/-- A change that concerns one chapter alone changes the number of those that wait as it changes whether that one waits. -/
theorem State.length_waiting (hs : s.SpotLaw) (ht : t.SpotLaw) (c : ChapterId) (hw : ∀ d, d ≠ c → t.waits d = s.waits d) :
    t.waiting.length + s.waits c = s.waiting.length + t.waits c := by
  have hperm : (t.waiting ++ List.replicate (s.waits c) c).Perm (s.waiting ++ List.replicate (t.waits c) c) := by
    refine List.perm_iff_count.2 fun d => ?_
    rw [List.count_append, List.count_append, ht.count_waiting, hs.count_waiting, List.count_replicate, List.count_replicate]
    by_cases hd : d = c
    · subst hd
      simp only [beq_self_eq_true, if_true]
      omega
    · simp [hw d hd, Ne.symm hd]
  simpa using hperm.length_eq

/-- R77: the count moves as whether the chapter waits does. -/
theorem State.QueueLaw.move (h : s.QueueLaw) (hs : s.SpotLaw) (ht : t.SpotLaw) (c : ChapterId)
    (hw : ∀ d, d ≠ c → t.waits d = s.waits d) (hq : t.queue.count + s.waits c = s.queue.count + t.waits c)
    (h64 : t.queue.count ≤ 64) : t.QueueLaw := by
  have hlength := State.length_waiting hs ht c hw
  obtain ⟨hcount, -⟩ := h
  exact ⟨by omega, h64⟩

/-- R77: a chapter that waits is counted. -/
theorem State.QueueLaw.waits_le (h : s.QueueLaw) (hs : s.SpotLaw) (c : ChapterId) : s.waits c ≤ s.queue.count := by
  rw [h.1, ← hs.count_waiting]
  exact List.count_le_length

/-! ### The passes of the lanes -/

/-- From `s` to `t` no lane takes a chapter or goes to another pass: each render of `t` is one of `s` in the same pass, and a record
of `t` that names a lane had the same state in `s`. The numbers of the table rise as they did. -/
structure State.NoneEnters (s t : State) : Prop where
  wf      : Tab.wf s.chapters = true → Tab.wf t.chapters = true
  records : ∀ n k, Tab.look t.chapters n = some k → k.state.inLane = true →
    ∃ k', Tab.look s.chapters n = some k' ∧ k'.state = k.state
  lanes   : ∀ i r, (t.lanes.get i).render = some r →
    ∃ r', (s.lanes.get i).render = some r' ∧ r'.chapter = r.chapter ∧ r'.stage.chapterState = r.stage.chapterState

theorem State.NoneEnters.trans {u : State} (h : State.NoneEnters s t) (h' : State.NoneEnters t u) : State.NoneEnters s u := by
  refine ⟨fun hw => h'.wf (h.wf hw), fun n k hk hin => ?_, fun i r hr => ?_⟩
  · obtain ⟨k₁, hk₁, hst₁⟩ := h'.records n k hk hin
    obtain ⟨k₂, hk₂, hst₂⟩ := h.records n k₁ hk₁ (hst₁ ▸ hin)
    exact ⟨k₂, hk₂, hst₂.trans hst₁⟩
  · obtain ⟨r₁, hr₁, hc₁, hst₁⟩ := h'.lanes i r hr
    obtain ⟨r₂, hr₂, hc₂, hst₂⟩ := h.lanes i r₁ hr₁
    exact ⟨r₂, hr₂, hc₂.trans hc₁, hst₂.trans hst₁⟩

/-- A change of the queue and of what no record or lane holds. -/
theorem State.NoneEnters.of_same (hl : t.lanes = s.lanes) (hc : t.chapters = s.chapters) : State.NoneEnters s t :=
  ⟨fun hw => hc ▸ hw, fun _ k hk _ => ⟨k, hc ▸ hk, rfl⟩, fun _ r hr => ⟨r, hl ▸ hr, rfl, rfl⟩⟩

theorem State.NoneEnters.refl (s : State) : State.NoneEnters s s := .of_same rfl rfl

/-- A record stored that names no lane. -/
theorem State.NoneEnters.of_put (hl : t.lanes = s.lanes) {n : Nat} (hc : t.chapters = Tab.put s.chapters n k)
    (hk : k.state.inLane = false) : State.NoneEnters s t := by
  refine ⟨fun hw => hc ▸ Tab.wf_put _ _ hw, fun m k' hk' hin => ?_, fun _ r hr => ⟨r, hl ▸ hr, rfl, rfl⟩⟩
  rw [hc, Tab.look_put] at hk'
  split at hk'
  · cases hk'
    rw [hk] at hin
    cases hin
  · exact ⟨k', hk', rfl⟩

/-- A record changed so that it names no lane. -/
theorem State.NoneEnters.of_change (hl : t.lanes = s.lanes) {n : Nat} {f : Chapter → Chapter}
    (hc : t.chapters = Tab.change s.chapters n f) (hf : ∀ k, (f k).state.inLane = false) : State.NoneEnters s t := by
  refine ⟨fun hw => hc ▸ Tab.wf_change _ _ hw, fun m k' hk' hin => ?_, fun _ r hr => ⟨r, hl ▸ hr, rfl, rfl⟩⟩
  rw [hc, Tab.look_change] at hk'
  split at hk'
  · obtain ⟨k, -, rfl⟩ := Option.map_eq_some_iff.1 hk'
    rw [hf] at hin
    cases hin
  · exact ⟨k', hk', rfl⟩

/-- Records removed. -/
theorem State.NoneEnters.of_filter (hl : t.lanes = s.lanes) (f : Nat → Bool)
    (hc : t.chapters = s.chapters.filter (fun e => f e.1)) : State.NoneEnters s t := by
  refine ⟨fun hw => hc ▸ Tab.wf_filter _ hw, fun m k' hk' _ => ?_, fun _ r hr => ⟨r, hl ▸ hr, rfl, rfl⟩⟩
  rw [hc, Tab.look_filter] at hk'
  split at hk'
  · exact ⟨k', hk', rfl⟩
  · cases hk'

/-- A lane that gives its chapter up. -/
theorem State.NoneEnters.of_vacated {i : Fin 4} {l : Lane} (hl : l.render = none) (hlanes : t.lanes = s.lanes.set i l)
    (hc : t.chapters = s.chapters) : State.NoneEnters s t := by
  refine ⟨fun hw => hc ▸ hw, fun _ k hk _ => ⟨k, hc ▸ hk, rfl⟩, fun j r hr => ?_⟩
  rw [hlanes] at hr
  by_cases hj : j = i
  · rw [hj, Four.get_set_same, hl] at hr
    cases hr
  · rw [Four.get_set_other _ _ hj] at hr
    exact ⟨r, hr, rfl, rfl⟩

theorem State.endLane_noneEnters (s : State) (i : Fin 4) (mark : Render → LastEnd) : State.NoneEnters s (s.endLane i mark) := by
  unfold State.endLane
  split
  · exact .refl s
  · exact .of_vacated (l := (s.lanes.get i).vacate _) rfl rfl rfl

theorem State.endRender_noneEnters (s : State) (c : ChapterId) (way : EndWay) : State.NoneEnters s (s.endRender c way) := by
  unfold State.endRender
  split
  · exact .refl s
  · exact s.endLane_noneEnters ..

theorem State.unqueue_noneEnters (s : State) (c : ChapterId) (k : Chapter) (way : EndWay) :
    State.NoneEnters s (s.unqueue c k way) := by
  unfold State.unqueue
  dsimp only
  split
  · split
    · exact .of_same rfl rfl
    · exact (s.endRender_noneEnters c way).trans (.of_same rfl rfl)
  · exact .refl s

theorem State.StageLaw.noneEnters (h : s.StageLaw) (ht : t.SpotLaw) (hn : State.NoneEnters s t) : t.StageLaw := by
  intro i r k hr hk
  obtain ⟨-, k', hk', hspot⟩ := ht.lane_record hr
  cases hk.symm.trans hk'
  obtain ⟨r₀, hr₀, hc, hst⟩ := hn.lanes i r hr
  obtain ⟨k₀, hk₀, hst'⟩ := hn.records _ k hk (Chapter.spot_lane.1 hspot)
  rw [← hst', ← hst]
  exact h i r₀ k₀ hr₀ (hc ▸ hk₀)

/-- R83: no two lanes hold the same chapter. -/
theorem State.SpotLaw.lane_unique (h : s.SpotLaw) {i j : Fin 4} {r q : Render} (hr : (s.lanes.get i).render = some r)
    (hq : (s.lanes.get j).render = some q) (hc : r.chapter = q.chapter) : i = j := by
  by_contra hij
  have hempty := State.count_laneChapters_set (s := s) (t := s.setLane j ⟨true, none, none⟩) rfl q.chapter
  have hi : ((s.setLane j ⟨true, none, none⟩).lanes.get i).render = some r := by
    rw [State.setLane_lanes, Four.get_set_other _ _ hij, hr]
  have hpos := State.mem_laneChapters hi
  have hone : s.laneChapters.count q.chapter ≤ 1 := by
    have hlane := h .lane q.chapter
    simp only [State.standing] at hlane
    rw [hlane]
    split <;> omega
  simp only [Lane.countOf, hq, Option.map_some, Option.map_none, if_true, reduceCtorEq, if_false] at hempty
  rw [hc] at hpos
  omega

/-- R82, R89 to R91: a lane that starts a pass, with the record of its chapter in the state of that pass. -/
theorem State.StageLaw.entered (h : s.StageLaw) (ht : t.SpotLaw) {i : Fin 4} {r : Render} (hr : (t.lanes.get i).render = some r)
    (hlanes : ∀ j, j ≠ i → (t.lanes.get j).render = (s.lanes.get j).render)
    (hrec : ∀ n, n ≠ r.chapter.key → Tab.look t.chapters n = Tab.look s.chapters n)
    (hself : ∀ k, t.chapter? r.chapter = some k → k.state = r.stage.chapterState) : t.StageLaw := by
  intro j q k hq hk
  by_cases hj : j = i
  · subst hj
    cases hr.symm.trans hq
    exact hself k hk
  · have hkey : q.chapter.key ≠ r.chapter.key := fun hkey =>
      hj (ht.lane_unique hq hr (ChapterId.key_inj (ht.lane_record hq).1 (ht.lane_record hr).1 hkey))
    exact h j q k ((hlanes j hj).symm.trans hq) ((hrec _ hkey).symm.trans hk)

end

end Sys2Proof.Machine
end

section
/-! SUPPORT. R76, R77, R83, R84: every step keeps the FIFOs, the lanes, the chapter states and the count in agreement. -/

namespace Sys2Proof.Machine

/-! ### How the count changes -/

theorem ChapterState.inLane_of_busy {st : ChapterState} (h : st.busy = false) : st.inLane = false := by
  cases st with
  | draft | done | failed => rfl
  | _ => cases h

theorem ChapterState.busy_afterEdit (st : ChapterState) : st.afterEdit.busy = st.busy := by cases st <;> rfl

theorem ChapterState.inLane_afterEdit (st : ChapterState) : st.afterEdit.inLane = false := by cases st <;> rfl

theorem Chapter.busy_afterCancel (k : Chapter) : k.afterCancel.busy = false := by
  unfold Chapter.afterCancel
  split <;> rfl

theorem Stage.inLane_chapterState (g : Stage) : g.chapterState.inLane = true := by cases g <;> rfl

@[simp] theorem State.endLane_queue (s : State) (i : Fin 4) (mark : Render → LastEnd) : (s.endLane i mark).queue = s.queue := by
  unfold State.endLane
  split <;> rfl

@[simp] theorem State.endRender_queue (s : State) (c : ChapterId) (way : EndWay) : (s.endRender c way).queue = s.queue := by
  unfold State.endRender
  split
  · rfl
  · exact State.endLane_queue ..

theorem State.unqueue_count (s : State) (c : ChapterId) (k : Chapter) (way : EndWay) :
    (s.unqueue c k way).queue.count = s.queue.count - if k.state.busy then 1 else 0 := by
  unfold State.unqueue
  dsimp only
  split
  · split
    · rfl
    · rw [State.endRender_queue]
      rfl
  · rfl

theorem State.editChapter_count (s : State) (c : ChapterId) (k : Chapter) :
    (s.editChapter c k).queue.count = s.queue.count := by
  unfold State.editChapter
  dsimp only
  split
  · rw [State.endRender_queue]
    cases k.priority <;> rfl
  · rfl

/-- The number of chapters that wait, once those of a title in no lane have left the FIFOs. -/
theorem State.retire_waiting (s : State) (th : Nat) (t : Title) :
    (s.retire th t).waiting.length + s.queue.entriesOf th = s.waiting.length := by
  have hlanes : (s.retire th t).laneChapters = s.laneChapters := by
    rw [State.retire_eq]
    rfl
  have hqueue : (s.retire th t).queue =
      { s.queue.remove (ofTitle th) with count := s.queue.count - s.queue.entriesOf th } := by
    rw [State.retire_eq]
  have hpart : ∀ l : List ChapterId, (l.filter (fun c => !ofTitle th c)).length + l.countP (ofTitle th) = l.length := by
    intro l
    rw [List.length_eq_countP_add_countP (ofTitle th) (l := l), ← List.countP_eq_length_filter, Nat.add_comm]
    simp
  have hrush := hpart s.queue.rush
  have hnormal := hpart s.queue.normal
  simp only [State.waiting, hqueue, hlanes, RenderQueue.remove, List.length_append, RenderQueue.entriesOf]
  omega

/-- R82: a dispatch of a chapter that has a record, in a title that has one. -/
theorem State.dispatchTo_taken (s : State) {c : ChapterId} {t : Title} {k : Chapter} (i : Fin 4) (origin : Priority)
    (q : RenderQueue) (ht : s.title? c.title = some t) (hk : s.chapter? c = some k) : s.dispatchTo i c origin q = { s with
      queue := q
      lanes := s.lanes.set i { s.lanes.get i with render := some (startRender c origin t k) }
      chapters := Tab.put s.chapters c.key { k with state := .measuring } } := by
  unfold State.dispatchTo
  rw [ht, hk]

theorem State.dispatchTo_noTitle (s : State) {c : ChapterId} (i : Fin 4) (origin : Priority) (q : RenderQueue)
    (ht : s.title? c.title = none) : s.dispatchTo i c origin q = s := by
  unfold State.dispatchTo
  rw [ht]

namespace State.Renders

variable {s t : State} {c : ChapterId} {k : Chapter}

/-! ### Requests -/

/-- A change that concerns one chapter, which no lane takes. -/
theorem move (h : s.Renders) (ht : t.SpotLaw) (hn : State.NoneEnters s t) (hi : c.index ≤ 127)
    (hrec : ∀ n, n ≠ c.key → Tab.look t.chapters n = Tab.look s.chapters n)
    (hq : t.queue.count + s.waits c = s.queue.count + t.waits c) (h64 : t.queue.count ≤ 64) : t.Renders := by
  obtain ⟨hwf, hspot, hstage, hqueue⟩ := h
  exact ⟨hn.wf hwf, ht, hstage.noneEnters ht hn,
    hqueue.move hspot ht c (fun _ hd => State.waits_other hi hrec hd) hq h64⟩

/-- R37, R79: a chapter taken out of its FIFO or its lane, whose record then goes or is that of no place. -/
theorem unqueued (h : s.Renders) (ht : t.SpotLaw) (hn : State.NoneEnters s t) (hi : c.index ≤ 127) (hk : s.chapter? c = some k)
    {way : EndWay} (hqueue : t.queue = (s.unqueue c k way).queue)
    (hrec : ∀ n, n ≠ c.key → Tab.look t.chapters n = Tab.look s.chapters n) (hw : t.waits c = 0) : t.Renders := by
  have hcount := s.unqueue_count c k way
  rw [← hqueue, ← State.waits_record hi hk] at hcount
  have hle := h.counted.waits_le h.spots c
  have h64 := h.counted.2
  exact h.move ht hn hi hrec (by omega) (by omega)

theorem deleted (h : s.Renders) (hi : c.index ≤ 127) (hk : s.chapter? c = some k) :
    ((s.unqueue c k .deleted).eraseChapter c k).Renders := by
  have hchapters : ((s.unqueue c k .deleted).eraseChapter c k).chapters = Tab.drop s.chapters c.key :=
    congrArg (fun t => Tab.drop t c.key) (s.unqueue_chapters c k .deleted)
  have hn : State.NoneEnters s ((s.unqueue c k .deleted).eraseChapter c k) :=
    (s.unqueue_noneEnters c k .deleted).trans (.of_filter rfl (fun n => decide (n ≠ c.key)) rfl)
  refine h.unqueued (h.spots.deleted hi hk .deleted) hn hi hk (way := .deleted) rfl (fun n hne => ?_) (State.waits_none ?_)
  · rw [hchapters, Tab.look_drop_other _ hne]
  · rw [State.chapter?, hchapters, Tab.look_drop_same]

theorem cancelled (h : s.Renders) (hi : c.index ≤ 127) (hk : s.chapter? c = some k) : (s.cancel c k).Renders := by
  have hchapters : (s.cancel c k).chapters = Tab.put s.chapters c.key { k with state := k.afterCancel } :=
    congrArg (fun t => Tab.put t c.key _) (s.unqueue_chapters c k .cancelled)
  have hn : State.NoneEnters s (s.cancel c k) :=
    (s.unqueue_noneEnters c k .cancelled).trans (.of_put rfl rfl (ChapterState.inLane_of_busy k.busy_afterCancel))
  have hself : (s.cancel c k).chapter? c = some { k with state := k.afterCancel } := by
    rw [State.chapter?, hchapters, Tab.look_put_same]
  refine h.unqueued (h.spots.cancelled hi hk) hn hi hk (way := .cancelled) rfl (fun n hne => ?_) ?_
  · rw [hchapters, Tab.look_put_other _ _ hne]
  · rw [State.waits_record hi hself, k.busy_afterCancel]
    rfl

theorem queued (h : s.Renders) (hi : c.index ≤ 127) (hk : s.chapter? c = some k) (hb : k.state.busy = false)
    (hfree : s.queue.count < 64) (q : Priority) : (s.enqueue c k q).Renders := by
  have hself : (s.enqueue c k q).chapter? c = some { k with priority := q, state := .queued } := Tab.look_put_same ..
  refine h.move (h.spots.queued hi hk hb q) (.of_put rfl rfl rfl) hi
    (fun n hne => Tab.look_put_other _ _ hne) ?_ hfree
  rw [State.waits_record hi hk, State.waits_record hi hself, hb]
  rfl

theorem edited {k' : Chapter} (h : s.Renders) (hi : c.index ≤ 127) (hk : s.chapter? c = some k) (hst : k'.state = k.state)
    (hpr : k'.priority = k.priority) : (s.editChapter c k').Renders := by
  have hlook := s.look_editChapter c k'
  have hself : (s.editChapter c k').chapter? c = some k'.edited := (hlook c.key).trans (if_pos rfl)
  have hn : State.NoneEnters s (s.editChapter c k') := by
    have hset : State.NoneEnters s (s.setChapter c k'.edited) :=
      .of_put rfl rfl k'.state.inLane_afterEdit
    unfold State.editChapter
    dsimp only
    split
    · exact hset.trans (((s.setChapter c k'.edited).endRender_noneEnters c .aborted).trans (.of_same rfl rfl))
    · exact hset
  refine h.move (h.spots.edited hi hk hst hpr) hn hi (fun n hne => (hlook n).trans (if_neg hne)) ?_ ?_
  · rw [State.waits_record hi hk, State.waits_record hi hself, State.editChapter_count, Chapter.edited,
      ChapterState.busy_afterEdit, hst]
  · rw [State.editChapter_count]
    exact h.counted.2

theorem defined (h : s.Renders) (hi : c.index ≤ 127) (hnone : s.chapter? c = none) : (s.setChapter c newChapter).Renders := by
  have hself : (s.setChapter c newChapter).chapter? c = some newChapter := Tab.look_put_same ..
  refine h.move (h.spots.defined hi hnone) (.of_put rfl rfl rfl) hi
    (fun n hne => Tab.look_put_other _ _ hne) ?_ h.counted.2
  rw [State.waits_none hnone, State.waits_record hi hself]
  rfl

theorem markStale (h : s.Renders) (th : Nat) : (s.markStale th).Renders := by
  obtain ⟨hwf, hspot, hstage, hqueue⟩ := h
  have hrec : ∀ n k, Tab.look (s.markStale th).chapters n = some k →
      ∃ k', Tab.look s.chapters n = some k' ∧ k'.state = k.state := by
    intro n k hk
    rw [State.look_markStale] at hk
    obtain ⟨k', hk', rfl⟩ := Option.map_eq_some_iff.1 hk
    refine ⟨k', hk', ?_⟩
    unfold Chapter.markedStale
    split_ifs <;> rfl
  refine ⟨Tab.wf_map _ (fun e => by split <;> rfl) hwf, hspot.markStale th, fun i r k hr hk => ?_, hqueue⟩
  obtain ⟨k', hk', hst⟩ := hrec _ k hk
  exact hst.symm.trans (hstage i r k' hr hk')

theorem retire (h : s.Renders) {th : Nat} (hl : s.titleInLane th = false) (t : Title) : (s.retire th t).Renders := by
  obtain ⟨hwf, hspot, hstage, hcount, h64⟩ := h
  have hspot' := hspot.retire hl t
  have hn : State.NoneEnters s (s.retire th t) := by
    rw [State.retire_eq]
    exact .of_filter rfl (fun n => decide (n / 128 ≠ th)) rfl
  have hqueue : (s.retire th t).queue.count = s.queue.count - s.queue.entriesOf th := by rw [State.retire_eq]
  have hwaiting := s.retire_waiting th t
  exact ⟨hn.wf hwf, hspot', hstage.noneEnters hspot' hn, by omega, by omega⟩

/-! ### Lanes -/

/-- R92, R152: a lane gives its chapter up, and the record of the chapter is that of no place. -/
theorem leaveLane (h : s.Renders) (ht : t.SpotLaw) {i : Fin 4} {r : Render} {l : Lane} {f : Chapter → Chapter}
    (hr : (s.lanes.get i).render = some r) (hl : l.render = none) (hlanes : t.lanes = s.lanes.set i l)
    (hq : t.queue.count = s.queue.count - 1) (hc : t.chapters = Tab.change s.chapters r.chapter.key f)
    (hf : ∀ k, (f k).state.busy = false) : t.Renders := by
  obtain ⟨hi, k, hk, hspot⟩ := h.spots.lane_record hr
  have hbusy : k.state.busy = true := by
    by_contra hb
    rw [Chapter.spot_none.2 (by simpa using hb)] at hspot
    cases hspot
  have hlook : ∀ n, Tab.look t.chapters n = if n = r.chapter.key then (Tab.look s.chapters n).map f else Tab.look s.chapters n :=
    fun n => by rw [hc, Tab.look_change]
  have hself : t.chapter? r.chapter = some (f k) := by
    rw [State.chapter?, hlook, if_pos rfl]
    exact congrArg (Option.map f) hk
  have hn : State.NoneEnters s t :=
    (State.NoneEnters.of_vacated (t := s.setLane i l) hl rfl rfl).trans
      (.of_change hlanes hc fun k => ChapterState.inLane_of_busy (hf k))
  have hs : s.waits r.chapter = 1 := by rw [State.waits_record hi hk, hbusy]; rfl
  have ht0 : t.waits r.chapter = 0 := by rw [State.waits_record hi hself, hf]; rfl
  have hle := h.counted.waits_le h.spots r.chapter
  have h64 := h.counted.2
  exact h.move ht hn hi (fun n hne => (hlook n).trans (if_neg hne)) (by omega) (by omega)

theorem failRender (h : s.Renders) (i : Fin 4) (cause : FailCause) (group position : Option Nat) :
    (s.failRender i cause group position).Renders := by
  have hspot := h.spots.failRender i cause group position
  unfold State.failRender State.endLane at hspot ⊢
  cases hr : (s.lanes.get i).render with
  | none => exact h
  | some r =>
    rw [hr] at hspot
    exact h.leaveLane (l := (s.lanes.get i).vacate _) hspot hr rfl rfl rfl rfl fun _ => rfl

theorem commit (h : s.Renders) (i : Fin 4) : (s.commit i).Renders := by
  have hspot := h.spots.commit i
  unfold State.commit at hspot ⊢
  cases hr : (s.lanes.get i).render with
  | none => exact h
  | some r =>
    rw [hr] at hspot
    exact h.leaveLane (l := (s.lanes.get i).vacate _) hspot hr rfl rfl rfl rfl fun _ => rfl

theorem endHold (h : s.Renders) (slot : Nat) : (s.endHold slot).Renders := by
  have hw : (s.withoutHold slot).Renders := h
  rcases endHold_cases s slot with he | he | ⟨i, r, hr, -, he⟩
  · rw [he]; exact h
  · rw [he]; exact hw
  · rw [he]; exact hw.commit i

theorem resetPort (h : s.Renders) (p : Port) : (s.resetPort p).Renders :=
  foldl_keeps (P := State.Renders) (fun _ slot h => endHold h slot) _ h

theorem expireHold (h : s.Renders) : s.expireHold.Renders := by
  unfold State.expireHold
  split
  · exact h
  · next slot _ _ => exact State.Renders.endHold (s := s.changePort _ _) h slot

/-- R81, R82: the head of a FIFO goes to a lane. -/
theorem dispatchTo (h : s.Renders) {i : Fin 4} {origin : Priority} {q : RenderQueue}
    (hspot : (s.dispatchTo i c origin q).SpotLaw) (hc : c ∈ s.queue.fifo origin) (hq : q.count = s.queue.count) :
    (s.dispatchTo i c origin q).Renders := by
  obtain ⟨hi, k, hk, hfifo⟩ := h.spots.fifo_record hc
  cases ht : s.title? c.title with
  | none => exact (s.dispatchTo_noTitle i origin q ht).symm ▸ h
  | some t =>
    obtain ⟨hwf, hs, hstage, hqueue⟩ := h
    have htaken := s.dispatchTo_taken i origin q ht hk
    generalize s.dispatchTo i c origin q = u at hspot htaken ⊢
    have hchapters : u.chapters = Tab.put s.chapters c.key { k with state := .measuring } := by rw [htaken]
    have hlanes : u.lanes = s.lanes.set i { s.lanes.get i with render := some (startRender c origin t k) } := by rw [htaken]
    have hcount : u.queue.count = s.queue.count := by rw [htaken, ← hq]
    have hrec : ∀ n, n ≠ c.key → Tab.look u.chapters n = Tab.look s.chapters n := fun n hne => by
      rw [hchapters, Tab.look_put_other _ _ hne]
    have hself : u.chapter? c = some { k with state := .measuring } := by rw [State.chapter?, hchapters, Tab.look_put_same]
    have hqueued := (Chapter.spot_fifo.1 hfifo).1
    refine ⟨hchapters ▸ Tab.wf_put _ _ hwf, hspot,
      hstage.entered (i := i) (r := startRender c origin t k) hspot (by rw [hlanes, Four.get_set_same])
        (fun j hj => by rw [hlanes, Four.get_set_other _ _ hj]) hrec (fun k' hk' => ?_),
      hqueue.move hs hspot c (fun _ hd => State.waits_other hi hrec hd) ?_ (hcount.le.trans hqueue.2)⟩
    · cases hself.symm.trans hk'
      rfl
    · rw [State.waits_record hi hk, State.waits_record hi hself, hqueued, hcount]
      rfl

theorem dispatchOne (h : s.Renders) : s.dispatchOne.Renders := by
  have hspot := h.spots.dispatchOne
  unfold State.dispatchOne at hspot ⊢
  split
  · exact h
  · next i hi =>
    rw [hi] at hspot
    cases hrush : s.queue.rush with
    | cons c rest =>
      rw [hrush] at hspot
      exact h.dispatchTo hspot (by simp [RenderQueue.fifo, hrush]) rfl
    | nil =>
      rw [hrush] at hspot
      cases hnormal : s.queue.normal with
      | cons c rest =>
        rw [hnormal] at hspot
        exact h.dispatchTo hspot (by simp [RenderQueue.fifo, hnormal]) rfl
      | nil => exact h

end State.Renders

end Sys2Proof.Machine
end

section
/-! SUPPORT. R77, R84: a slot of the wheel keeps the laws on renders: a lane goes on in its pass, goes to the next one with its
chapter, or gives its chapter up. -/

namespace Sys2Proof.Machine

/-- The part with the same chapters, queue, published sets and holds, and each lane with its chapter in the same pass. -/
structure State.SamePass (s t : State) : Prop extends State.Near s t where
  passes : ∀ i, (t.lanes.get i).render.map (fun r => r.stage.chapterState) =
    (s.lanes.get i).render.map (fun r => r.stage.chapterState)

section
variable {s t : State} {i : Fin 4} {r r' : Render}

theorem State.SamePass.refl (s : State) : State.SamePass s s := ⟨State.Near.refl s, fun _ => rfl⟩

/-- What a slot does to the lists of the ports, to the pool, to the page bytes and to take memory. -/
theorem State.SamePass.store (s : State) (q : Ports) (pool : List Nat) (mem : Memory) :
    State.SamePass s { s with ports := q, rendMem := { s.rendMem with pool := pool, mem := mem } } :=
  ⟨State.Near.store s q pool mem, fun _ => rfl⟩

/-- A lane that goes on in its pass. -/
theorem State.SamePass.setRender (h : State.SamePass s t) (hr : (s.lanes.get i).render = some r) (hc : r'.chapter = r.chapter)
    (hst : r'.stage.chapterState = r.stage.chapterState) : State.SamePass s (t.setRender i r') := by
  refine ⟨h.toNear.setRender hr hc, fun j => ?_⟩
  rw [State.setRender_lanes]
  by_cases hj : j = i
  · subst hj
    rw [Four.get_set_same, hr, Option.map_some, Option.map_some, hst]
  · rw [Four.get_set_other _ _ hj, h.passes]

theorem State.SamePass.noneEnters (h : State.SamePass s t) : State.NoneEnters s t := by
  refine ⟨fun hw => h.chapters ▸ hw, fun _ k hk _ => ⟨k, h.chapters ▸ hk, rfl⟩, fun i r hr => ?_⟩
  have hc := h.lanes i
  have hp := h.passes i
  rw [hr, Option.map_some] at hc hp
  obtain ⟨r', hr', hc'⟩ := Option.map_eq_some_iff.1 hc.symm
  rw [hr', Option.map_some, Option.some_inj] at hp
  exact ⟨r', hr', hc', hp.symm⟩

namespace State.Renders

theorem samePass (h : s.Renders) (hn : State.SamePass s t) : t.Renders := by
  obtain ⟨hwf, hspot, hstage, hqueue⟩ := h
  have hspot' := hspot.near hn.toNear
  have hwaits : ∀ c, t.waits c = s.waits c := fun c => by
    unfold State.waits State.spotOf State.chapter?
    rw [hn.chapters]
  refine ⟨hn.noneEnters.wf hwf, hspot', hstage.noneEnters hspot' hn.noneEnters,
    hqueue.move hspot hspot' ⟨0, 0⟩ (fun _ _ => hwaits _) ?_ (hn.queue ▸ hqueue.2)⟩
  rw [hn.queue, hwaits]

/-- R89, R91: a lane goes to its next pass, and the chapter with it. -/
theorem nextPass (h : s.Renders) (hr : (s.lanes.get i).render = some r) (hc : r'.chapter = r.chapter) :
    ((s.setRender i r').changeChapter r.chapter (fun k => { k with state := r'.stage.chapterState })).Renders := by
  obtain ⟨hwf, hspot, hstage, hqueue⟩ := h
  have hnear := (State.Near.refl s).setRender hr hc
  obtain ⟨q, hq, hqc⟩ := hnear.render hr
  have hspot' := hqc ▸ (hspot.near hnear).passed hq (st := r'.stage.chapterState) r'.stage.inLane_chapterState
  obtain ⟨hi, k, hk, hlane⟩ := hspot.lane_record hr
  have hrec : ∀ n, n ≠ r.chapter.key → Tab.look (Tab.change s.chapters r.chapter.key
      (fun k => { k with state := r'.stage.chapterState })) n = Tab.look s.chapters n := fun n hne => by
    rw [Tab.look_change, if_neg hne]
  have hself : ((s.setRender i r').changeChapter r.chapter (fun k => { k with state := r'.stage.chapterState })).chapter?
      r.chapter = some { k with state := r'.stage.chapterState } := by
    rw [State.chapter?, State.changeChapter_chapters, State.setRender_chapters, Tab.look_change, if_pos rfl]
    exact congrArg _ hk
  have hbusy : ∀ st : ChapterState, st.inLane = true → st.busy = true := fun st hst => by
    cases hb : st.busy with
    | true => rfl
    | false => exact (ChapterState.inLane_of_busy hb).symm.trans hst
  refine ⟨Tab.wf_change _ _ hwf, hspot', hstage.entered (i := i) (r := r') hspot' ?_ (fun j hj => ?_) ?_ ?_,
    hqueue.move hspot hspot' r.chapter (fun _ hd => State.waits_other hi hrec hd) ?_ hqueue.2⟩
  · rw [State.changeChapter_lanes, State.setRender_lanes, Four.get_set_same]
  · rw [State.changeChapter_lanes, State.setRender_lanes, Four.get_set_other _ _ hj]
  · rwa [hc]
  · intro k' hk'
    rw [hc] at hk'
    cases hself.symm.trans hk'
    rfl
  · rw [State.waits_record hi hk, State.waits_record hi hself, hbusy _ (Chapter.spot_lane.1 hlane),
      hbusy _ r'.stage.inLane_chapterState]
    rfl

/-! ### The slot -/

theorem failRead (h : s.Renders) (i : Fin 4) (r : Render) (g : Nat) : (s.failRead i r g).Renders :=
  State.Renders.failRender (s := { s with takeMem := s.takeMem.markFaulted g }) h ..

theorem measured (h : s.Renders) (hr : (s.lanes.get i).render = some r) {a : Assembly} {m : Meter} (hst : r.stage = .measure a m)
    (held : Option HeldBlock) (m' : Meter) : (s.measured i r held m').Renders := by
  unfold State.measured
  split
  · exact h.nextPass (r' := { r with
      pass := 0,
      stage := .encode { cursor := 0, held := none } (m'.gain r.params.loudness) 0 (startEncoders 0 r.params.profiles) }) hr rfl
  · exact h.samePass ((State.SamePass.refl s).setRender hr rfl (hst ▸ rfl))

theorem askCommit (h : s.Renders) (hr : (s.lanes.get i).render = some r) (hst : r.stage.chapterState = .encoding)
    (gain : GainRecord) (saturated : Nat) (es : List Encoder) : (s.askCommit i r gain saturated es).Renders := by
  unfold State.askCommit
  split
  · exact h.nextPass (r' := { r with pass := r.pass + 1, stage := .commitWait gain saturated es }) hr rfl
  · exact (h.samePass ((State.SamePass.refl s).setRender (r' := { r with
      pass := r.pass + 1,
      stage := .encode { cursor := r.timeline.length, held := none } gain saturated es }) hr rfl hst.symm)).commit i

theorem takeFrame (h : s.Renders) (hr : (s.lanes.get i).render = some r) (hst : r.stage.chapterState = .encoding)
    (held : Option HeldBlock) (gain : GainRecord) (saturated : Nat) (es : List Encoder) (pool : List Nat) (voiced : Bool)
    (ys : List Int) : (s.takeFrame i r held gain saturated es pool voiced ys).Renders := by
  unfold State.takeFrame State.endEncode
  dsimp only
  split
  · exact (h.samePass (.store s _ pool _)).askCommit hr hst ..
  · exact h.samePass ((State.SamePass.store s _ pool _).setRender hr rfl hst.symm)

theorem encoded (h : s.Renders) (hr : (s.lanes.get i).render = some r) (hst : r.stage.chapterState = .encoding)
    (a : Assembly) (held : Option HeldBlock) (gain : GainRecord) (saturated : Nat) (es : List Encoder) (xs : List Int) :
    (s.encoded i r a held gain saturated es xs).Renders := by
  unfold State.encoded
  dsimp only
  split
  · exact h.takeFrame hr hst ..
  · next es' pool _ =>
    exact (h.samePass ((State.SamePass.store s s.ports pool s.rendMem.mem).setRender
      (r' := { r with stage := .encode a gain (saturated + saturations gain.q xs) es' }) hr rfl hst.symm)).failRender ..

theorem grantSlot (h : s.Renders) {f : Option Nat} (ht : s.grantSlot f = some t) : t.Renders := by
  unfold State.grantSlot at ht
  split at ht
  · cases ht; exact h
  split at ht
  · cases ht; exact h
  next r hr =>
  split at ht
  · unfold State.progress at ht
    split at ht
    · next hst =>
      split at ht
      · cases ht
      · cases ht; exact h.failRead ..
      · cases ht; exact h.measured hr hst ..
    · next hst =>
      split at ht
      · cases ht
      · cases ht; exact h.failRead ..
      · cases ht; exact h.encoded hr (hst ▸ rfl) ..
    · cases ht; exact h
  · cases ht; exact h

/-! ### Every step -/

/-- Requests keep the laws. -/
theorem change {p : Port} (hc : Change p s t) (h : s.Renders) : t.Renders := by
  cases hc with
  | titleParams th => exact State.Renders.markStale (s := s.setTitle th _) h th
  | tone th t r => exact State.Renders.markStale (s := s.moveTone th t r) h th
  | retired th t _ hl => exact h.retire hl t
  | defined th index t _ hi hn => exact h.defined hi hn
  | deleted th index t k _ hi hk => exact h.deleted hi hk
  | edited th index t k k' up dn _ hi hk hst hpr =>
    exact State.Renders.edited (s := s.setTakeMem ((s.takeMem.raise up).lower dn)) h hi hk hst hpr
  | queued th index t k q _ hi hk hb _ hfree => exact h.queued hi hk hb hfree q
  | cancelled th index t k _ hi hk => exact h.cancelled hi hk
  | lanes m => exact h.samePass ⟨⟨rfl, rfl, rfl, rfl, fun i => by match i with | 0 | 1 | 2 | 3 => rfl⟩,
      fun i => by match i with | 0 | 1 | 2 | 3 => rfl⟩
  | closed slot => exact h.endHold slot
  | portReset => exact h.resetPort p
  | discarded take first last =>
    obtain ⟨m, q, he⟩ := s.commitDiscard_eq p take first last
    rw [he]
    exact h
  | _ => exact h

/-- Every step keeps the laws. -/
theorem kept : Kept State.Renders where
  ports _ _ _ h := h
  pending _ _ h := h
  resetHeld _ _ h := h
  change _ _ _ hc h := h.change hc
  endFetch _ _ h := h
  endHold _ slot h := h.endHold slot
  eraseStart _ h := h
  eraseDone _ h := h
  eraseFailed _ h := h
  dispatch _ h := h.dispatchOne
  slot _ _ _ ht h := h.grantSlot ht
  advance _ h := h
  clock _ h := h
  expire _ h := h.expireHold
  abandon _ h := h
  restart s cause ra rb rc h := by
    refine ⟨rfl, SpotLaw.kept.restart s cause ra rb rc h.spots, fun i r k _ hk => ?_, rfl, Nat.zero_le _⟩
    have hnone : (s.restart cause ra rb rc).chapter? r.chapter = none := rfl
    cases hnone.symm.trans hk
  blockDone _ _ _ _ _ _ h := h
  blockFailed s take t block g _ _ h := by
    obtain ⟨m, q, he⟩ := s.blockFailed_eq take t block g
    rw [he]
    exact h

end State.Renders

end

end Sys2Proof.Machine

namespace Sys2Proof.Settled

open Sys2Proof.Machine

/-- Settles O59: the places of the chapters are kept by every step (`State.SpotLaw.kept`); by them, a step that concerns one chapter
moves the count as it moves that chapter, and only a dispatch and the end of a pass bring a lane to a new pass. -/
theorem stepsKeepRenders : Obligations.StepsKeepRenders := by
  unfold Obligations.StepsKeepRenders
  intro s t h hstep
  exact State.renders_iff.1 (State.Renders.kept.step hstep (State.renders_iff.2 h))

end Sys2Proof.Settled
end

section
/-! SUPPORT. What QUEUE-RENDER and CANCEL-RENDER answer, one equation for each outcome. -/

namespace Sys2Proof.Machine

/-! ### QUEUE-RENDER -/

theorem Priority.ofCode_none {n : Nat} (h : 1 < n) : Priority.ofCode? n = none := by
  match n, h with
  | n + 2, _ => rfl

theorem Priority.ofCode_code (q : Priority) : Priority.ofCode? q.code = some q := by cases q <;> rfl

theorem Priority.code_exists {n : Nat} (h : n ≤ 1) : ∃ q : Priority, n = q.code := by
  match n, h with
  | 0, _ => exact ⟨.normal, rfl⟩
  | 1, _ => exact ⟨.rush, rfl⟩

section
variable {th c : Nat} {s : State} {t : Title} {k : Chapter}

theorem queueRender_range {pr : Nat} (h : s.title? th = some t) (hst : t.state ≠ .final) (hc : c ≤ 127)
    (hk : s.chapter? ⟨th, c⟩ = some k) (hp : 1 < pr) : queueRender th c pr s = refuse .range s := by
  refine (withTitle_some h).trans ((if_neg hst).trans ((withChapter_some hc hk).trans ?_))
  rw [Priority.ofCode_none hp]

variable (q : Priority)

/-- R78: a priority leaves the checks of the state, of the segments and of the count. -/
theorem queueRender_checks (h : s.title? th = some t) (hst : t.state ≠ .final) (hc : c ≤ 127)
    (hk : s.chapter? ⟨th, c⟩ = some k) : queueRender th c q.code s =
      if k.state.busy then refuse .badState s
      else if k.segments = [] then refuse .badState s
      else if 64 ≤ s.queue.count then refuse .full s
      else accept [BitVec.ofNat 8 q.code, BitVec.ofNat 8 (s.queue.fifo q).length, BitVec.ofNat 8 (s.queue.count + 1)]
        (s.enqueue ⟨th, c⟩ k q) := by
  refine (withTitle_some h).trans ((if_neg hst).trans ((withChapter_some hc hk).trans ?_))
  rw [q.ofCode_code]
  rfl

theorem queueRender_busy (h : s.title? th = some t) (hst : t.state ≠ .final) (hc : c ≤ 127)
    (hk : s.chapter? ⟨th, c⟩ = some k) (hb : k.state.busy = true) : queueRender th c q.code s = refuse .badState s :=
  (queueRender_checks q h hst hc hk).trans (if_pos hb)

theorem queueRender_empty (h : s.title? th = some t) (hst : t.state ≠ .final) (hc : c ≤ 127)
    (hk : s.chapter? ⟨th, c⟩ = some k) (hb : k.state.busy = false) (hg : k.segments = []) :
    queueRender th c q.code s = refuse .badState s :=
  (queueRender_checks q h hst hc hk).trans ((if_neg (by simp [hb])).trans (if_pos hg))

theorem queueRender_full (h : s.title? th = some t) (hst : t.state ≠ .final) (hc : c ≤ 127)
    (hk : s.chapter? ⟨th, c⟩ = some k) (hb : k.state.busy = false) (hg : k.segments ≠ []) (hn : 64 ≤ s.queue.count) :
    queueRender th c q.code s = refuse .full s :=
  (queueRender_checks q h hst hc hk).trans ((if_neg (by simp [hb])).trans ((if_neg hg).trans (if_pos hn)))

/-- R78: the command of a QUEUE-RENDER that is taken. -/
theorem exec_queueRender_taken {p : Port} {tag : Byte} (hl : s.listens p) (ha : s.allows p .render) (h : s.title? th = some t)
    (hst : t.state ≠ .final) (hc : c ≤ 127) (hk : s.chapter? ⟨th, c⟩ = some k) (hb : k.state.busy = false)
    (hg : k.segments ≠ []) (hn : s.queue.count < 64) :
    exec (.queueRender p tag th c q.code) s = .next ((s.enqueue ⟨th, c⟩ k q).answered p tag 2 (s.marked p)
      { status := .ok, results :=
        [BitVec.ofNat 8 q.code, BitVec.ofNat 8 (s.queue.fifo q).length, BitVec.ofNat 8 (s.queue.count + 1)] }) :=
  exec_answered (r := .queueRender th c q.code) (s.enqueue ⟨th, c⟩ k q) rfl hl ha rfl rfl rfl
    ((queueRender_checks (s := s.heard p 2) q h hst hc hk).trans
      ((if_neg (by simp [hb])).trans ((if_neg hg).trans (if_neg (Nat.not_le.2 hn)))))

end

/-! ### CANCEL-RENDER -/

/-- R34, in the rule's words. -/
theorem Chapter.afterCancel_eq (k : Chapter) :
    k.afterCancel = if k.published = true ∧ k.stale = false then .done else .draft := by
  unfold Chapter.afterCancel
  simp only [Bool.and_eq_true, Bool.not_eq_true']

theorem Chapter.byte_afterCancel (k : Chapter) :
    BitVec.ofNat 8 k.afterCancel.code = if k.published = true ∧ k.stale = false then 5#8 else 0#8 := by
  rw [Chapter.afterCancel_eq]
  split <;> rfl

section
variable {th c : Nat} {s : State} {t : Title} {k : Chapter}

theorem cancelRender_idle (h : s.title? th = some t) (hc : c ≤ 127) (hk : s.chapter? ⟨th, c⟩ = some k)
    (hb : k.state.busy = false) : cancelRender th c s = refuse .badState s :=
  (withTitle_some h).trans ((withChapter_some hc hk).trans (if_pos hb))

theorem cancelRender_taken (h : s.title? th = some t) (hc : c ≤ 127) (hk : s.chapter? ⟨th, c⟩ = some k)
    (hb : k.state.busy = true) :
    cancelRender th c s = accept (cancelResults s (s.cancel ⟨th, c⟩ k) ⟨th, c⟩ k) (s.cancel ⟨th, c⟩ k) :=
  (withTitle_some h).trans ((withChapter_some hc hk).trans (if_neg (by simp [hb])))

theorem cancelResults_queued (s' : State) (ch : ChapterId) (hq : k.state = .queued) : cancelResults s s' ch k =
    [1#8, if k.published = true ∧ k.stale = false then 5#8 else 0#8, 0#8, 0#8, 0#8, 0#8, 0#8, 0#8, 0#8] := by
  rw [← k.byte_afterCancel, cancelResults, hq]
  rfl

theorem cancelResults_lane {s' : State} {ch : ChapterId} {i : Fin 4} {pages : List Nat} (hl : k.state.inLane = true)
    (hi : s.laneOf ch = some i) (hp : s'.rendMem.pool = s.rendMem.pool ++ pages) : cancelResults s s' ch k =
      [BitVec.ofNat 8 k.state.code, if k.published = true ∧ k.stale = false then 5#8 else 0#8, 1#8, BitVec.ofNat 8 i.val, 1#8] ++
        le 4 pages.length := by
  rw [← k.byte_afterCancel, cancelResults, hl, hi, hp, List.length_append, Nat.add_sub_cancel_left]
  rfl

end

end Sys2Proof.Machine

namespace Sys2Proof.Settled

open Sys2Proof.Machine

/-- Settles O24: the priority, the state, the segments and the count decide QUEUE-RENDER; the place of the chapter, as
`State.unqueue` finds it, decides what CANCEL-RENDER leaves. -/
theorem queueAndCancel : Obligations.QueueAndCancel := by
  unfold Obligations.QueueAndCancel
  refine ⟨fun p tag th c pr s t k hl ha ht hst hc hk => ?_, fun p tag th c s t k hl ha ht hc hk => ?_⟩
  · intro no
    have hno : ∀ st, queueRender th c pr (s.heard p 2) = refuse st (s.heard p 2) → no st :=
      fun st hr => exec_reads (r := .queueRender th c pr) rfl hl ha rfl rfl hr
    refine ⟨fun hp => hno _ (queueRender_range ht hst hc hk hp), fun hp hb => ?_, fun hp hb => ?_⟩
    · obtain ⟨q, rfl⟩ := Priority.code_exists hp
      exact hno _ (queueRender_busy q ht hst hc hk (by simpa [ChapterState.busy_eq] using hb))
    · obtain ⟨q, rfl⟩ := Priority.code_exists hp
      have hfree : k.state.busy = false := by rcases hb with hs | hs | hs <;> rw [hs] <;> rfl
      refine ⟨fun hg => hno _ (queueRender_empty q ht hst hc hk hfree hg),
        fun hg hn => hno _ (queueRender_full q ht hst hc hk hfree hg hn), fun hg hn hq => ?_, fun hg hn hq => ?_⟩
      · obtain rfl : q = .normal := by cases q with | normal => rfl | rush => cases hq
        exact exec_queueRender_taken .normal hl ha ht hst hc hk hfree hg hn
      · obtain rfl : q = .rush := by cases q with | rush => rfl | normal => cases hq
        exact exec_queueRender_taken .rush hl ha ht hst hc hk hfree hg hn
  · intro ch after code
    have hafter : k.afterCancel = after := k.afterCancel_eq
    refine ⟨fun hb => ?_, fun hq => ?_, fun i r hin hi hr => ?_⟩
    · have hfree : k.state.busy = false := by rcases hb with hs | hs | hs <;> rw [hs] <;> rfl
      exact exec_reads (r := .cancelRender th c) rfl hl ha rfl rfl (cancelRender_idle ht hc hk hfree)
    · refine exec_answered (r := .cancelRender th c) _ rfl hl ha rfl rfl rfl
        ((cancelRender_taken (s := s.heard p 1) ht hc hk (by rw [hq]; rfl)).trans ?_)
      rw [cancelResults_queued _ _ hq, State.cancel, State.unqueue_queued hq, hafter]
      rfl
    · have hbusy : k.state.busy = true := by
        rw [ChapterState.busy_eq, decide_eq_true_eq]
        exact .inr ((ChapterState.inLane_iff _).1 hin)
      have hcancel := State.unqueue_lane (s := s.heard p 1) hin .cancelled hi hr
      refine request_answered_notify (.cancelRender th c) tag _
        (NoticeLists.postCrossings r.chapter (endedRestores r.stage.encoders)) _ hl ha rfl rfl rfl
        ((cancelRender_taken (s := s.heard p 1) ht hc hk hbusy).trans ?_)
      rw [cancelResults_lane (s := s.heard p 1) (pages := r.pages) hin hi (by rw [State.cancel, hcancel]; rfl), State.cancel,
        hcancel, hafter]
      rfl

end Sys2Proof.Settled
end

section
/-! SUPPORT. What SET-WHEEL, SET-LANES and SET-HOLD-LIMIT answer. -/

namespace Sys2Proof.Machine

/-! ### SET-WHEEL -/

/-- R86: the slot entry that a byte which names one gives: a lane, or NONE. -/
def slotEntry (n : Nat) : Option (Fin 4) := if h : n < 4 then some ⟨n, h⟩ else none

theorem slotOfCode_entry {n : Nat} (h : n ≤ 3 ∨ n = 255) : slotOfCode? n = some (slotEntry n) := by
  unfold slotOfCode? slotEntry
  by_cases hn : n < 4
  · rw [dif_pos hn, dif_pos hn]
  · rw [dif_neg hn, dif_neg hn, if_pos (by omega)]

theorem slotOfCode_none {n : Nat} (h : ¬ (n ≤ 3 ∨ n = 255)) : slotOfCode? n = none := by
  unfold slotOfCode?
  rw [dif_neg (by omega), if_neg (by omega)]

/-- R187: the entry is given back as the byte that named it. -/
theorem slotCode_entry {n : Nat} (h : n ≤ 3 ∨ n = 255) : slotCode (slotEntry n) = n := by
  unfold slotEntry
  by_cases hn : n < 4
  · rw [dif_pos hn]
    rfl
  · rw [dif_neg hn]
    exact (h.resolve_left (by omega)).symm

section
variable {e0 e1 e2 e3 : Nat} (s : State)

theorem setWheel_taken (h0 : e0 ≤ 3 ∨ e0 = 255) (h1 : e1 ≤ 3 ∨ e1 = 255) (h2 : e2 ≤ 3 ∨ e2 = 255)
    (h3 : e3 ≤ 3 ∨ e3 = 255) :
    setWheel e0 e1 e2 e3 s = accept (patternBytes s.wheel.pattern ++
        [BitVec.ofNat 8 e0, BitVec.ofNat 8 e1, BitVec.ofNat 8 e2, BitVec.ofNat 8 e3])
      { s with wheel := { s.wheel with pending := some ⟨slotEntry e0, slotEntry e1, slotEntry e2, slotEntry e3⟩ } } := by
  have hbytes : patternBytes ⟨slotEntry e0, slotEntry e1, slotEntry e2, slotEntry e3⟩ =
      [BitVec.ofNat 8 e0, BitVec.ofNat 8 e1, BitVec.ofNat 8 e2, BitVec.ofNat 8 e3] := by
    simp only [patternBytes, Four.toList, le_one, slotCode_entry h0, slotCode_entry h1, slotCode_entry h2, slotCode_entry h3,
      List.flatMap_cons, List.flatMap_nil, List.cons_append, List.nil_append]
  unfold setWheel
  rw [slotOfCode_entry h0, slotOfCode_entry h1, slotOfCode_entry h2, slotOfCode_entry h3]
  dsimp only
  rw [hbytes]

theorem setWheel_range
    (h : ¬ ((e0 ≤ 3 ∨ e0 = 255) ∧ (e1 ≤ 3 ∨ e1 = 255) ∧ (e2 ≤ 3 ∨ e2 = 255) ∧ (e3 ≤ 3 ∨ e3 = 255))) :
    setWheel e0 e1 e2 e3 s = refuse .range s := by
  have hok : ∀ {n x}, slotOfCode? n = some x → n ≤ 3 ∨ n = 255 := fun hx => by
    by_contra hn
    rw [slotOfCode_none hn] at hx
    cases hx
  unfold setWheel
  split
  · next h0 h1 h2 h3 => exact absurd ⟨hok h0, hok h1, hok h2, hok h3⟩ h
  · rfl

end

/-! ### SET-LANES -/

/-- R187: a set of lanes 0 to 3 is given back as the byte that named it. -/
theorem enabledMask_enableLanes {m : Byte} (h : m.toNat < 16) (f : Four Lane) :
    BitVec.ofNat 8 (enabledMask (enableLanes m f)) = m := by
  have hbits : ∀ m : Byte, m.toNat < 16 → BitVec.ofNat 8 ((if m.getLsbD 0 then 1 else 0) + (if m.getLsbD 1 then 2 else 0) +
      (if m.getLsbD 2 then 4 else 0) + (if m.getLsbD 3 then 8 else 0)) = m := by decide
  rw [enabledMask_eq]
  exact hbits m h

theorem setLanes_range {m : Byte} (h : ¬ m.toNat < 16) (s : State) : setLanes m s = refuse .range s := if_pos (Nat.le_of_not_lt h)

theorem setLanes_taken {m : Byte} (h : m.toNat < 16) (s : State) : setLanes m s =
    accept (m :: s.lanes.toList.map (fun l => BitVec.ofNat 8 l.state.code)) { s with lanes := enableLanes m s.lanes } := by
  refine (if_neg (Nat.not_le.2 h)).trans ?_
  rw [le_one, enabledMask_enableLanes h]
  rfl

/-! ### SET-HOLD-LIMIT -/

/-- R155: the limit is clamped exactly if the number lies outside 1 to 60. -/
theorem setHoldLimit_eq (n : Int) (s : State) : setHoldLimit n s =
    accept [BitVec.ofNat 8 (max 1 (min 60 n)).toNat]
      { s with holdTable := { s.holdTable with limit := (max 1 (min 60 n)).toNat } }
      { clamped := decide (n < 1 ∨ 60 < n) } := by
  have hclamped : max 1 (min 60 n) ≠ n ↔ n < 1 ∨ 60 < n := by omega
  rw [setHoldLimit, clamp_eq _ _ _ (by decide), le_one, decide_eq_decide.2 hclamped]

end Sys2Proof.Machine

namespace Sys2Proof.Settled

open Sys2Proof.Machine

/-- Settles O25: the four entries decide SET-WHEEL, the byte of lanes SET-LANES; SET-HOLD-LIMIT clamps. -/
theorem renderSettings : Obligations.RenderSettings := by
  unfold Obligations.RenderSettings
  refine ⟨fun p tag s hl ha => ⟨fun e0 e1 e2 e3 => ?_, fun m => ?_⟩, fun p tag n s hl ha => ?_⟩
  · intro ok entry
    split
    · next h =>
      obtain ⟨h0, h1, h2, h3⟩ := h
      exact exec_answered (r := .setWheel e0 e1 e2 e3) { s with
          wheel := { s.wheel with pending := some ⟨slotEntry e0, slotEntry e1, slotEntry e2, slotEntry e3⟩ } }
        rfl hl ha rfl rfl rfl (setWheel_taken (s.heard p 4) h0 h1 h2 h3)
    · next h => exact exec_reads (r := .setWheel e0 e1 e2 e3) rfl hl ha rfl rfl (setWheel_range _ h)
  · split
    · next h =>
      exact exec_answered (r := .setLanes m) { s with lanes := enableLanes m s.lanes } rfl hl ha rfl rfl rfl
        (setLanes_taken h (s.heard p 1))
    · next h => exact exec_reads (r := .setLanes m) rfl hl ha rfl rfl (setLanes_range h _)
  · exact exec_answered (r := .setHoldLimit n) { s with
        holdTable := { s.holdTable with limit := (max 1 (min 60 n)).toNat } }
      rfl hl ha rfl rfl rfl (setHoldLimit_eq n (s.heard p 2))

end Sys2Proof.Settled
end

section
/-! SUPPORT. What DISPATCH leaves, by the lowest dispatchable lane and the heads of the FIFOs. -/

namespace Sys2Proof.Machine

section
variable {s : State} {i : Fin 4}

/-- R81: the lane that is looked for is the lowest dispatchable one. -/
theorem State.find_dispatchable (hi : s.dispatchable i = true) (hlow : ∀ j, j < i → s.dispatchable j = false) :
    fourIndexes.find? s.dispatchable = some i := by
  match i with
  | 0 => simp [fourIndexes, hi]
  | 1 => simp [fourIndexes, hi, hlow 0 (by decide)]
  | 2 => simp [fourIndexes, hi, hlow 0 (by decide), hlow 1 (by decide)]
  | 3 => simp [fourIndexes, hi, hlow 0 (by decide), hlow 1 (by decide), hlow 2 (by decide)]

theorem State.dispatchOne_noLane (h : ∀ i, s.dispatchable i = false) : s.dispatchOne = s := by
  have hfind : fourIndexes.find? s.dispatchable = none := List.find?_eq_none.2 fun i _ => by simp [h i]
  unfold State.dispatchOne
  rw [hfind]

theorem State.dispatchOne_noChapter (hr : s.queue.rush = []) (hn : s.queue.normal = []) : s.dispatchOne = s := by
  unfold State.dispatchOne
  rw [hr, hn]
  split
  · rfl
  · rfl

theorem State.dispatchOne_rush {c : ChapterId} {rest : List ChapterId} (hi : fourIndexes.find? s.dispatchable = some i)
    (hr : s.queue.rush = c :: rest) : s.dispatchOne = s.dispatchTo i c .rush { s.queue with rush := rest } := by
  unfold State.dispatchOne
  rw [hi, hr]

theorem State.dispatchOne_normal {c : ChapterId} {rest : List ChapterId} (hi : fourIndexes.find? s.dispatchable = some i)
    (hr : s.queue.rush = []) (hn : s.queue.normal = c :: rest) :
    s.dispatchOne = s.dispatchTo i c .normal { s.queue with normal := rest } := by
  unfold State.dispatchOne
  rw [hi, hr, hn]

/-- R82: a dispatch to an enabled lane. -/
theorem State.dispatchTo_enabled {c : ChapterId} {t : Title} {k : Chapter} (origin : Priority) (q : RenderQueue)
    (he : (s.lanes.get i).enabled = true) (ht : s.title? c.title = some t) (hk : s.chapter? c = some k) :
    s.dispatchTo i c origin q = { s with
      queue := q
      lanes := s.lanes.set i ⟨true, some (startRender c origin t k), (s.lanes.get i).lastEnd⟩
      chapters := Tab.put s.chapters c.key { k with state := .measuring } } := by
  rw [State.dispatchTo_taken s i origin q ht hk, ← he]

end

end Sys2Proof.Machine

namespace Sys2Proof.Settled

open Sys2Proof.Machine

/-- Settles O42: the lowest dispatchable lane and the heads of the FIFOs decide what is dispatched. -/
theorem dispatch : Obligations.Dispatch := by
  unfold Obligations.Dispatch
  intro s hreset ready
  have hready : ∀ i, s.dispatchable i = true ↔ ready i := fun i => by rw [State.dispatchable_eq, decide_eq_true_eq]
  have hnot : ∀ i, ¬ ready i → s.dispatchable i = false := fun i h => by rwa [← hready, Bool.not_eq_true] at h
  have hexec : ∀ {t}, s.dispatchOne = t → exec .dispatch s = .next t.driveAttn := fun h => h ▸ event_next hreset
  refine ⟨?_, fun i c t k hi hlow ht hk => ?_⟩
  · rintro (h | ⟨hr, hn⟩)
    · exact hexec (State.dispatchOne_noLane fun i => hnot i (h i))
    · exact hexec (State.dispatchOne_noChapter hr hn)
  · intro gives
    have hfind := State.find_dispatchable ((hready i).2 hi) fun j hj => hnot j (hlow j hj)
    obtain ⟨-, he, -⟩ := hi
    exact ⟨fun rest hr => hexec ((State.dispatchOne_rush hfind hr).trans (State.dispatchTo_enabled _ _ he ht hk)),
      fun rest hr hn => hexec ((State.dispatchOne_normal hfind hr hn).trans (State.dispatchTo_enabled _ _ he ht hk))⟩

end Sys2Proof.Settled
end

section
/-! SUPPORT. What a slot of the wheel grants, by its entry and the state of the lane; and what the measure pass and a failed render
leave. -/

namespace Sys2Proof.Machine

/-! ### The slot -/

theorem wheelAfter_eq (w : Wheel) : wheelAfter w = w.advance := rfl

section
variable {s t : State} {f : Option Nat} {i : Fin 4} {r : Render}

/-- R85: a slot whose lane does `t` with the part, and nothing to the wheel. -/
theorem exec_wheelSlot (h : s.resetHeld = none) (hg : s.grantSlot f = some t) (hw : t.wheel = s.wheel) :
    exec (.wheelSlot f) s = .next ({ t with wheel := wheelAfter s.wheel } : State).driveAttn := by
  have hrun : exec (.wheelSlot f) s = if s.resetHeld.isSome then finish s else
      match s.grantSlot f with
      | none => .fault .strayLaneRead
      | some s' => finish s'.advanceWheel := rfl
  rw [hrun, h, hg, wheelAfter_eq, ← hw]
  rfl

theorem State.grantSlot_unnamed (he : s.wheel.pattern.get s.wheel.slot = none) : s.grantSlot f = some s := by
  unfold State.grantSlot
  rw [he]

theorem State.grantSlot_idle (he : s.wheel.pattern.get s.wheel.slot = some i) (hr : (s.lanes.get i).render = none) :
    s.grantSlot f = some s := by
  unfold State.grantSlot
  rw [he]
  dsimp only
  rw [hr]

theorem State.grantSlot_disabled (he : s.wheel.pattern.get s.wheel.slot = some i) (hd : (s.lanes.get i).enabled = false) :
    s.grantSlot f = some s := by
  unfold State.grantSlot
  rw [he]
  dsimp only
  rw [hd]
  split
  · rfl
  · rfl

theorem State.grantSlot_enabled (he : s.wheel.pattern.get s.wheel.slot = some i) (hd : (s.lanes.get i).enabled = true)
    (hr : (s.lanes.get i).render = some r) : s.grantSlot f = s.progress i r f := by
  unfold State.grantSlot
  rw [he]
  dsimp only
  rw [hr]
  exact if_pos hd

/-! ### The block of progress -/

theorem State.progress_commitWait {gain : GainRecord} {n : Nat} {es : List Encoder} (hst : r.stage = .commitWait gain n es) :
    s.progress i r f = some s := by
  unfold State.progress
  rw [hst]

theorem State.progress_measured {a : Assembly} {m : Meter} {held : Option HeldBlock} {xs : List Int} (hst : r.stage = .measure a m)
    (hb : buildBlock s.takeMem f (blockSources r.timeline r.params.roomTone r.pass) a.held 0 = .complete held xs) :
    s.progress i r f = some (s.measured i r held (m.addBlock xs (endsQuad r.timeline.blocks r.pass))) := by
  unfold State.progress
  rw [hst]
  dsimp only
  rw [hb]

theorem State.progress_encoded {a : Assembly} {gain : GainRecord} {n : Nat} {es : List Encoder} {held : Option HeldBlock}
    {xs : List Int} (hst : r.stage = .encode a gain n es)
    (hb : buildBlock s.takeMem f (blockSources r.timeline r.params.roomTone r.pass) a.held 0 = .complete held xs) :
    s.progress i r f = some (s.encoded i r a held gain n es xs) := by
  unfold State.progress
  rw [hst]
  dsimp only
  rw [hb]

theorem State.progress_readError {a : Assembly} {g : Nat}
    (hst : (∃ m, r.stage = .measure a m) ∨ ∃ gain n es, r.stage = .encode a gain n es)
    (hb : buildBlock s.takeMem f (blockSources r.timeline r.params.roomTone r.pass) a.held 0 = .readError g) :
    s.progress i r f = some (s.failRead i r g) := by
  unfold State.progress
  rcases hst with ⟨m, hst⟩ | ⟨gain, n, es, hst⟩
  · rw [hst]
    dsimp only
    rw [hb]
  · rw [hst]
    dsimp only
    rw [hb]

/-! ### What it leaves -/

/-- R89, R91: an enabled lane goes on. -/
theorem State.setRender_enabled (he : (s.lanes.get i).enabled = true) (r : Render) :
    s.setRender i r = { s with lanes := s.lanes.set i ⟨true, some r, (s.lanes.get i).lastEnd⟩ } := by
  rw [← he]
  rfl

/-- R92: a render fails. -/
theorem State.failRender_eq (hr : (s.lanes.get i).render = some r) (cause : FailCause) (group position : Option Nat) :
    s.failRender i cause group position = s.failedRender i r cause group position := by
  unfold State.failRender State.endLane
  rw [hr]
  rfl

theorem endsQuad_eq (blocks n : Nat) : endsQuad blocks n = decide (n % 4 = 3 ∨ n + 1 = blocks) := by
  rw [endsQuad, Bool.decide_or]

/-- R130: the encoders at the end of the measure pass. -/
theorem startEncoders_eq (k : Nat) (ps : List Profile) :
    startEncoders k ps = ps.mapIdx (fun j q => Encoder.start (k + j) q) := by
  induction ps generalizing k with
  | nil => rfl
  | cons p ps ih =>
    rw [startEncoders, ih, List.mapIdx_cons]
    simp only [Nat.add_zero, Nat.add_assoc, Nat.add_comm 1]

/-- R89: the lane has measured a block that is not the last. -/
theorem State.measured_on (he : (s.lanes.get i).enabled = true) (held : Option HeldBlock) (m : Meter)
    (hl : r.pass + 1 ≠ r.timeline.blocks) : s.measured i r held m = { s with
      lanes := s.lanes.set i ⟨true, some { r with
        pass := r.pass + 1, stage := .measure ⟨(r.pass + 1) * 1024, held⟩ m }, (s.lanes.get i).lastEnd⟩ } :=
  (if_neg hl).trans (State.setRender_enabled he _)

/-- R90: the lane has measured the last block. -/
theorem State.measured_last (he : (s.lanes.get i).enabled = true) (held : Option HeldBlock) (m : Meter)
    (hl : r.pass + 1 = r.timeline.blocks) : s.measured i r held m = { s with
      lanes := s.lanes.set i ⟨true, some { r with
        pass := 0
        stage := .encode ⟨0, none⟩
          (gainRecord r.params.loudness (integrated m.bins r.params.loudness.absGate) (peakLevel m.peak)) 0
          (r.params.profiles.mapIdx (fun j q => ⟨j, q, q.cmax, false, 0, 0, 64, 0xFFFFFFFF#32, [], none, []⟩)) },
        (s.lanes.get i).lastEnd⟩
      chapters := Tab.change s.chapters r.chapter.key (fun k => { k with state := .encoding }) } := by
  have hstart : startEncoders 0 r.params.profiles =
      r.params.profiles.mapIdx (fun j q => ⟨j, q, q.cmax, false, 0, 0, 64, 0xFFFFFFFF#32, [], none, []⟩) := by
    simp only [startEncoders_eq, Nat.zero_add, Encoder.start]
  refine (if_pos hl).trans ?_
  dsimp only
  rw [hstart, State.setRender_enabled he]
  rfl

end

end Sys2Proof.Machine

namespace Sys2Proof.Settled

open Sys2Proof.Machine

/-- Settles O43: the entry and the lane decide whether the slot is used, the block that is built what its lane does. -/
theorem measureSlot : Obligations.MeasureSlot := by
  unfold Obligations.MeasureSlot
  intro s f hreset entry moved
  refine ⟨fun he => ?_, fun i he hun => ?_, fun i r he hd hr => ⟨fun a m held xs hst hb => ?_, fun a g hst hb => ?_⟩⟩
  · exact exec_wheelSlot hreset (State.grantSlot_unnamed he) rfl
  · rcases hun with hd | hr | ⟨r, gain, n, es, hr, hst⟩
    · exact exec_wheelSlot hreset (State.grantSlot_disabled he hd) rfl
    · exact exec_wheelSlot hreset (State.grantSlot_idle he hr) rfl
    · cases hd : (s.lanes.get i).enabled with
      | false => exact exec_wheelSlot hreset (State.grantSlot_disabled he hd) rfl
      | true =>
        exact exec_wheelSlot hreset ((State.grantSlot_enabled he hd hr).trans (State.progress_commitWait hst)) rfl
  · have hgrant := (State.grantSlot_enabled he hd hr).trans (State.progress_measured hst hb)
    rw [endsQuad_eq] at hgrant
    refine ⟨fun hl => ?_, fun hl => ?_⟩
    · exact exec_wheelSlot hreset (hgrant.trans (congrArg some (State.measured_on hd held _ hl))) rfl
    · exact exec_wheelSlot hreset (hgrant.trans (congrArg some (State.measured_last hd held _ hl))) rfl
  · have hgrant := (State.grantSlot_enabled he hd hr).trans (State.progress_readError hst hb)
    have hfail := State.failRender_eq (s := { s with takeMem := s.takeMem.markFaulted g }) hr .takeFault (some g) (some r.pass)
    exact exec_wheelSlot hreset (hgrant.trans (congrArg some hfail)) rfl

end Sys2Proof.Settled
end

section
/-! SUPPORT. What the encode pass leaves: a frame taken, the last frame, the commit or the wait for it, and an empty pool. -/

namespace Sys2Proof.Machine

section
variable {s : State} {i : Fin 4} {r : Render}

/-! ### The end of a render -/

/-- R92: what a failed render leaves does not depend on the render that the lane held before. -/
theorem State.failedRender_setRender (s : State) (i : Fin 4) (q r : Render) (cause : FailCause) (group position : Option Nat) :
    (s.setRender i q).failedRender i r cause group position = s.failedRender i r cause group position := by
  simp only [State.failedRender, State.setRender_lanes, Four.get_set_same, Four.set_set]
  rfl

/-- R152: nor does what a commit leaves. -/
theorem State.committedTo_setRender (s : State) (i : Fin 4) (q r : Render) (n : Nat) (mem : Memory) :
    (s.setRender i q).committedTo i r n mem = s.committedTo i r n mem := by
  simp only [State.committedTo, State.setRender_lanes, Four.get_set_same, Four.set_set]
  rfl

/-- R33, R152: the commit of a chapter that has a record. -/
theorem State.commit_eq {k : Chapter} (hr : (s.lanes.get i).render = some r) (hk : s.chapter? r.chapter = some k) :
    s.commit i = s.committedTo i r (nextSerial k.serial)
      (r.stage.encoders.foldl (fun mem e => writeSerial mem (nextSerial k.serial) e.pages) s.rendMem.mem) := by
  have hserial : s.commitSerial r.chapter = nextSerial k.serial := by
    unfold State.commitSerial
    rw [hk]
  have hchapters : Tab.change s.chapters r.chapter.key Chapter.committed = Tab.change s.chapters r.chapter.key
      (fun x => { x with serial := nextSerial k.serial, published := true, stale := false, state := .done }) := by
    have hlook : Tab.look s.chapters r.chapter.key = some k := hk
    unfold Tab.change
    rw [hlook]
    rfl
  unfold State.commit
  rw [hr]
  dsimp only
  rw [hserial, hchapters]
  rfl

/-- R152: the commit of a render that the lane has just come to. -/
theorem State.commit_setRender {k : Chapter} (i : Fin 4) (r : Render) (hk : s.chapter? r.chapter = some k) :
    (s.setRender i r).commit i = s.committedTo i r (nextSerial k.serial)
      (r.stage.encoders.foldl (fun mem e => writeSerial mem (nextSerial k.serial) e.pages) s.rendMem.mem) :=
  (State.commit_eq (s := s.setRender i r) (by rw [State.setRender_lanes, Four.get_set_same]) hk).trans
    (State.committedTo_setRender ..)

/-- R91, R153: the finished render waits for the holds that name its chapter. -/
theorem State.askCommit_held (he : (s.lanes.get i).enabled = true) (hh : s.held r.chapter = true) (gain : GainRecord) (n : Nat)
    (es : List Encoder) : s.askCommit i r gain n es = { s with
      lanes := s.lanes.set i ⟨true, some { r with pass := r.pass + 1, stage := .commitWait gain n es }, (s.lanes.get i).lastEnd⟩
      chapters := Tab.change s.chapters r.chapter.key (fun k => { k with state := .commitWait }) } := by
  refine (if_pos hh).trans ?_
  rw [State.setRender_enabled he]
  rfl

/-- R91, R152: the finished render is committed, where no hold names its chapter. -/
theorem State.askCommit_free {k : Chapter} (hh : s.held r.chapter = false) (hk : s.chapter? r.chapter = some k) (gain : GainRecord)
    (n : Nat) (a : Assembly) (es : List Encoder) : s.askCommit i r gain n es =
      s.committedTo i { r with stage := .encode a gain n es } (nextSerial k.serial)
        (es.foldl (fun mem e => writeSerial mem (nextSerial k.serial) e.pages) s.rendMem.mem) := by
  exact (if_neg (by rw [hh]; exact Bool.false_ne_true)).trans (State.commit_setRender i { r with
    pass := r.pass + 1, stage := .encode { cursor := r.timeline.length, held := none } gain n es } hk)

/-! ### A frame -/

/-- R145: a page is needed and the pool is empty. -/
theorem State.encoded_noSpace {a : Assembly} {held : Option HeldBlock} {gain : GainRecord} {n : Nat} {es : List Encoder}
    {xs : List Int} {v : Bool} (hv : isVoiced r.params.loudness.silence (gainBlock gain.q xs) = v)
    (hd : (drawPages v es s.rendMem.pool).2.2 = false) : s.encoded i r a held gain n es xs =
      ({ s with rendMem := { s.rendMem with pool := (drawPages v es s.rendMem.pool).2.1 } } : State).failedRender i
        { r with stage := .encode a gain (n + saturations gain.q xs) (drawPages v es s.rendMem.pool).1 } .noSpace none none := by
  unfold State.encoded
  dsimp only
  rw [hv]
  generalize drawPages v es s.rendMem.pool = drawn at hd ⊢
  obtain ⟨es', pool, ok⟩ := drawn
  cases hd
  refine (State.failRender_eq ?_ ..).trans (State.failedRender_setRender ..)
  rw [State.setRender_lanes, Four.get_set_same]

/-- R140: the pages that the frame needs are drawn. -/
theorem State.encoded_drawn {a : Assembly} {held : Option HeldBlock} {gain : GainRecord} {n : Nat} {es : List Encoder}
    {xs : List Int} {v : Bool} (hv : isVoiced r.params.loudness.silence (gainBlock gain.q xs) = v)
    (hd : (drawPages v es s.rendMem.pool).2.2 = true) : s.encoded i r a held gain n es xs =
      s.takeFrame i r held gain (n + saturations gain.q xs) (drawPages v es s.rendMem.pool).1 (drawPages v es s.rendMem.pool).2.1 v
        (gainBlock gain.q xs) := by
  unfold State.encoded
  dsimp only
  rw [hv]
  generalize drawPages v es s.rendMem.pool = drawn at hd ⊢
  obtain ⟨es', pool, ok⟩ := drawn
  cases hd
  rfl

variable (held : Option HeldBlock) (gain : GainRecord) (n : Nat) (es : List Encoder) (pool : List Nat) (v : Bool) (ys : List Int)

/-- R91: a frame that is not the last. -/
theorem State.takeFrame_on (he : (s.lanes.get i).enabled = true) (hl : r.pass + 1 ≠ r.timeline.blocks) :
    s.takeFrame i r held gain n es pool v ys = { s with
      lanes := s.lanes.set i ⟨true, some { r with
        pass := r.pass + 1
        stage := .encode ⟨(r.pass + 1) * 1024, held⟩ gain n (es.map (fun e => e.takeFrame v ys r.pass)) },
        (s.lanes.get i).lastEnd⟩
      rendMem := { s.rendMem with pool := pool, mem := writeFrames s.rendMem.mem v ys es }
      ports := s.ports.notify (NoticeLists.postCrossings r.chapter (es.filterMap (fun e => e.crossing v r.pass))) } :=
  (if_neg hl).trans (State.setRender_enabled (s := { s with
    ports := s.ports.notify (NoticeLists.postCrossings r.chapter (es.filterMap (fun e => e.crossing v r.pass)))
    rendMem := { s.rendMem with pool := pool, mem := writeFrames s.rendMem.mem v ys es } }) he _)

/-- R138, R139, R147: the part when the encoders have taken the last frame, are restored and have their headers written. -/
def State.finished (s : State) (r : Render) (gain : GainRecord) (n : Nat) (es : List Encoder) (pool : List Nat) (v : Bool)
    (ys : List Int) : State := { s with
  rendMem := { s.rendMem with
    pool := pool
    mem := writeHeaders (writeFrames s.rendMem.mem v ys es)
      (match s.title? r.chapter.title with | none => 0 | some t => t.catalogue) r gain n
      (es.map (fun e => e.takeFrame v ys r.pass)) }
  ports := s.ports.notify (fun l =>
    (l.postCrossings r.chapter (es.filterMap (fun e => e.crossing v r.pass))).postCrossings r.chapter
      (endedRestores (es.map (fun e => e.takeFrame v ys r.pass)))) }

/-- R138: the last frame leads to the commit, or to the wait for it. -/
theorem State.takeFrame_last (hl : r.pass + 1 = r.timeline.blocks) : s.takeFrame i r held gain n es pool v ys =
    (s.finished r gain n es pool v ys).askCommit i r gain n
      ((es.map (fun e => e.takeFrame v ys r.pass)).map (fun e => { e with starved := false })) :=
  (if_pos hl).trans rfl

theorem State.finished_mem_wf (h : Memory.wf s.rendMem.mem = true) :
    Memory.wf (s.finished r gain n es pool v ys).rendMem.mem = true :=
  Memory.wf_foldl (fun _ _ h => wf_writeImage _ _ _ h) _ (Memory.wf_foldl (fun _ _ h => wf_writeImage _ _ _ h) _ h)

end

end Sys2Proof.Machine

namespace Sys2Proof.Settled

open Sys2Proof.Machine

/-- Settles O44: the pages drawn decide whether the frame is taken, the pass position whether it is the last, the holds whether the
commit is taken at once. -/
theorem encodeSlot : Obligations.EncodeSlot := by
  unfold Obligations.EncodeSlot
  intro s f i r a gain n es held xs hreset hentry he hr hst hb moved ys n' v drawn taken crossed framed last headed ended
  have hgrant := (State.grantSlot_enabled hentry he hr).trans (State.progress_encoded hst hb)
  have hexec : ∀ {t}, s.encoded i r a held gain n es xs = t → t.wheel = s.wheel → exec (.wheelSlot f) s = .next (moved t) :=
    fun ht hw => exec_wheelSlot hreset (hgrant.trans (congrArg some ht)) hw
  refine ⟨fun hd => ?_, fun hd hl => ?_, fun hd hl => ?_⟩
  · exact hexec (State.encoded_noSpace rfl hd) rfl
  · exact hexec ((State.encoded_drawn rfl hd).trans (State.takeFrame_on _ _ _ _ _ _ _ he hl)) rfl
  · have hlast := (State.encoded_drawn (i := i) (a := a) (held := held) (n := n) rfl hd).trans
      (State.takeFrame_last _ _ _ _ _ _ _ hl)
    refine ⟨fun e hm hc => ?_, fun k hfree hk hwf => ?_⟩
    · have hheld : (s.finished r gain n' drawn.1 drawn.2.1 v ys).held r.chapter = true := held_iff.2 ⟨e, hm, hc⟩
      exact hexec (hlast.trans (State.askCommit_held (s := s.finished r gain n' drawn.1 drawn.2.1 v ys) he hheld gain n' last)) rfl
    · intro serial
      have hheld : (s.finished r gain n' drawn.1 drawn.2.1 v ys).held r.chapter = false := by
        rw [← Bool.not_eq_true, held_iff]
        rintro ⟨e, hm, hc⟩
        exact hfree e hm hc
      exact ⟨_, writeSerial_stored (State.finished_mem_wf gain n' drawn.1 drawn.2.1 v ys hwf) serial last,
        hexec (hlast.trans (State.askCommit_free (s := s.finished r gain n' drawn.1 drawn.2.1 v ys) hheld hk gain n' a last)) rfl⟩

end Sys2Proof.Settled
end

section
/-! SUPPORT. The timeline: the lengths and the parts of a chapter, the sample at an offset of a part, and the blocks as runs of
positions; and the statement about them. -/

namespace Sys2Proof.Machine

/-! ### The parts -/

@[simp] theorem Part.length_tone (n : Nat) : (Part.tone n).length = n := rfl

@[simp] theorem Part.length_segment (g : Segment) : (Part.segment g).length = g.length := rfl

/-- R22: every segment, and every gap but the last. -/
theorem segmentsLength_eq (gs : List Segment) :
    segmentsLength gs = (gs.map (fun g => g.length)).sum + (gs.dropLast.map (fun g => g.gap)).sum := by
  induction gs with
  | nil => rfl
  | cons g gs ih =>
    cases gs with
    | nil => simp [segmentsLength]
    | cons h t =>
      simp only [segmentsLength, ih, List.dropLast_cons_cons, List.map_cons, List.sum_cons]
      omega

/-- R98: a segment and its gap each, without the gap after the last. -/
theorem segmentParts_eq (gs : List Segment) :
    segmentParts gs = (gs.flatMap (fun g => [.segment g, .tone g.gap])).dropLast := by
  induction gs with
  | nil => rfl
  | cons g gs ih =>
    cases gs with
    | nil => rfl
    | cons h t =>
      rw [segmentParts, ih]
      rfl

theorem sum_segmentParts (gs : List Segment) : ((segmentParts gs).map (fun x => x.length)).sum = segmentsLength gs := by
  induction gs with
  | nil => rfl
  | cons g gs ih =>
    cases gs with
    | nil => rfl
    | cons h t =>
      simp only [segmentParts, segmentsLength, List.map_cons, List.sum_cons, ih, Part.length_segment,
        Part.length_tone]
      omega

theorem Timeline.sum_parts (t : Timeline) : (t.parts.map (fun x => x.length)).sum = t.length := by
  simp only [Timeline.parts, Timeline.length, timelineLength, List.map_cons, List.map_append, List.map_nil, List.sum_cons,
    List.sum_append, List.sum_nil, sum_segmentParts, Part.length_tone]
  omega

/-- R98: a position belongs to the part it lies in, at its offset there. -/
theorem sourceAt_part (tone : Option RoomSpan) (a b : List Part) {x : Part} {d : Nat} (h : d < x.length) :
    sourceAt tone (a ++ x :: b) ((a.map (fun y => y.length)).sum + d) = x.source tone d := by
  induction a with
  | nil =>
    rw [List.map_nil, List.sum_nil, Nat.zero_add]
    exact if_pos h
  | cons y a ih =>
    rw [List.map_cons, List.sum_cons, Nat.add_assoc, List.cons_append, sourceAt, if_neg (by omega), Nat.add_sub_cancel_left, ih]

/-! ### The blocks -/

theorem blockCount_eq (l : Nat) : blockCount l = l / 1024 + (if l % 1024 = 0 then 0 else 1) := by
  unfold blockCount
  split
  · omega
  · omega

theorem length_blockSources (t : Timeline) (tone : Option RoomSpan) (n : Nat) :
    (blockSources t tone n).length = min 1024 (t.length - n * 1024) := by
  rw [blockSources, List.length_map, List.length_range', blockSize]

/-- R104: the first blocks hold the first positions, each once and in order. -/
theorem flatMap_blockPositions (l b : Nat) :
    (List.range b).flatMap (fun n => List.range' (n * 1024) (blockSize l n)) = List.range (min l (b * 1024)) := by
  induction b with
  | zero => simp
  | succ b ih =>
    rw [List.range_succ, List.flatMap_append, ih, List.flatMap_singleton, List.range_eq_range', List.range_eq_range', blockSize]
    by_cases h : b * 1024 ≤ l
    · have hsum : min l ((b + 1) * 1024) = b * 1024 + min 1024 (l - b * 1024) := by omega
      have hstart : min l (b * 1024) = b * 1024 := Nat.min_eq_right h
      rw [hstart, hsum, ← List.range'_append_1, Nat.zero_add]
    · have hempty : min 1024 (l - b * 1024) = 0 := by omega
      have hsame : min l ((b + 1) * 1024) = min l (b * 1024) := by omega
      rw [hempty, hsame, List.range'_zero, List.append_nil]

/-- R104: the blocks are the timeline. -/
theorem Timeline.flatMap_blockSources (t : Timeline) (tone : Option RoomSpan) :
    (List.range t.blocks).flatMap (blockSources t tone) = (List.range t.length).map (sourceAt tone t.parts) := by
  have hall : min t.length (t.blocks * 1024) = t.length := by
    unfold Timeline.blocks blockCount
    omega
  rw [← hall, ← flatMap_blockPositions, List.map_flatMap]
  rfl

end Sys2Proof.Machine

namespace Sys2Proof.Settled

open Sys2Proof.Machine

/-- Settles O45: the blocks are consecutive runs of positions that end with the length, and a position is found by walking over the
parts before it. -/
theorem blocksMakeTheTimeline : Obligations.BlocksMakeTheTimeline := by
  unfold Obligations.BlocksMakeTheTimeline
  intro t tone
  have hblocks : t.blocks = (t.length + 1023) / 1024 := rfl
  refine ⟨?_, blockCount_eq _, t.sum_parts, t.flatMap_blockSources tone, fun n hn => ?_, fun hl => ⟨?_, ?_, ?_⟩, ?_,
    fun a b n d hd => ?_, fun a b g d hd => ?_⟩
  · rw [Timeline.length, timelineLength, segmentsLength_eq, ← Nat.add_assoc]
  · rw [length_blockSources]
    omega
  · omega
  · rw [length_blockSources]
    omega
  · omega
  · rw [Timeline.parts, segmentParts_eq]
  · exact sourceAt_part tone a b (x := .tone n) hd
  · exact sourceAt_part tone a b (x := .segment g) hd

end Sys2Proof.Settled
end

section
/-! SUPPORT. Building a block: a visit to a take block, the block built from its visits, and the weights of fades; and the statement
about them. -/

namespace Sys2Proof.Machine

/-! ### The samples of a take block -/

/-- R62: a stored sample is the number its three bytes spell. -/
theorem storedSamples_getD (m : Memory) (g q : Nat) {i : Nat} (hi : i < 1024) : (storedSamples m g q).getD i 0 =
    sampleOf (Memory.read m (blockAddress g q + 3 * i)) (Memory.read m (blockAddress g q + 3 * i + 1))
      (Memory.read m (blockAddress g q + 3 * i + 2)) := by
  simp [storedSamples, List.getD, hi]

theorem sampleOf_eq (a b c : Byte) :
    sampleOf a b c = (BitVec.ofNat 24 (a.toNat + 256 * (b.toNat + 256 * c.toNat))).toInt := rfl

/-- R99: the value of a source is the weighted sample of its take block. -/
theorem sourceValue_sample {m : TakeMemory} {take index g : Nat} (weight : Option Nat)
    (hg : m.blockGroup take (index / 1024) = some g) : sourceValue m (.sample take index weight) =
      weigh weight ((storedSamples m.mem g (index / 1024 % 256)).getD (index % 1024) 0) := by
  rw [storedSamples_getD _ _ _ (Nat.mod_lt _ (by decide)), sampleOf_eq]
  cases weight with
  | none => simp only [sourceValue, weigh, blockAddress, hg, Nat.add_zero]
  | some w => simp only [sourceValue, weigh, blockAddress, hg, Nat.add_zero]

/-! ### Visits -/

theorem heldTrue_stored {m : TakeMemory} {take block g : Nat} (hg : m.blockGroup take block = some g) :
    heldTrue m (some ⟨take, block, storedSamples m.mem g (block % 256)⟩) := by
  unfold heldTrue
  dsimp only
  exact ⟨g, hg, rfl⟩

/-- R107: a visit that gets a block gets the one asked for, as take memory holds it. -/
theorem visitBlock_got {m : TakeMemory} {f : Option Nat} {take block n n' : Nat} {held : Option HeldBlock} {h : HeldBlock}
    (ht : heldTrue m held) (hv : visitBlock m f take block held n = .got h n') :
    ∃ g, m.blockGroup take block = some g ∧ h = ⟨take, block, storedSamples m.mem g (block % 256)⟩ := by
  unfold visitBlock at hv
  split at hv
  · next h' hf =>
    obtain ⟨hheld, hmatch⟩ := Option.filter_eq_some_iff.1 hf
    obtain ⟨rfl, rfl⟩ := of_decide_eq_true hmatch
    subst hheld
    obtain ⟨g, hg, hs⟩ := ht
    cases hv
    refine ⟨g, hg, ?_⟩
    rw [← hs]
  · split at hv
    · cases hv
    · next g hg =>
      split at hv
      · cases hv
      · cases hv
        exact ⟨g, hg, rfl⟩

theorem Built.cons_eq_complete {x : Int} {b : Built} {held : Option HeldBlock} {xs : List Int} (h : b.cons x = .complete held xs) :
    ∃ ys, b = .complete held ys ∧ xs = x :: ys := by
  cases b with
  | complete held' ys =>
    cases h
    exact ⟨ys, rfl, rfl⟩
  | readError | stray => cases h

/-- R97, R107: a completed block holds the values of its sources, and leaves a true held block. -/
theorem buildBlock_complete {m : TakeMemory} {f : Option Nat} {src : List Source} {held held' : Option HeldBlock} {n : Nat}
    {xs : List Int} (ht : heldTrue m held) (h : buildBlock m f src held n = .complete held' xs) :
    heldTrue m held' ∧ xs = src.map (sourceValue m) := by
  induction src generalizing held n xs with
  | nil =>
    cases h
    exact ⟨ht, rfl⟩
  | cons x src ih =>
    cases x with
    | zero =>
      obtain ⟨ys, hb, rfl⟩ := Built.cons_eq_complete h
      obtain ⟨ht', rfl⟩ := ih ht hb
      exact ⟨ht', rfl⟩
    | sample take index weight =>
      unfold buildBlock at h
      split at h
      · cases h
      · cases h
      · next hv =>
        obtain ⟨g, hg, rfl⟩ := visitBlock_got ht hv
        obtain ⟨ys, hb, rfl⟩ := Built.cons_eq_complete h
        obtain ⟨ht', rfl⟩ := ih (heldTrue_stored hg) hb
        exact ⟨ht', by rw [List.map_cons, sourceValue_sample weight hg]⟩

/-! ### Weights -/

/-- R100: the weights of a fade reach neither 0 nor 65,536. -/
theorem fadeWeight_bounds {k f : Nat} (hk : k < f) (hf : f ≤ 48000) : 1 ≤ fadeWeight k f ∧ fadeWeight k f ≤ 65535 := by
  unfold fadeWeight
  constructor
  · rw [Nat.one_le_div_iff (by omega)]
    omega
  · rw [← Nat.lt_succ_iff, Nat.div_lt_iff_lt_mul (by omega)]
    omega

/-- R100: the weighted sample is rounded toward −∞. -/
theorem weigh_some (w : Nat) (x : Int) : weigh (some w) x = ⌊(x : ℚ) * w / 65536⌋ := by
  have h := Rat.floor_intCast_div_natCast (x * w) 65536
  push_cast at h
  exact h.symm

/-- R101: a weighted sample that is not negative lies between 0 and the sample. -/
theorem weigh_nonneg {w : Nat} {x : Int} (hw : w ≤ 65536) (hx : 0 ≤ x) : 0 ≤ weigh (some w) x ∧ weigh (some w) x ≤ x := by
  have hmul : x * w ≤ x * 65536 := Int.mul_le_mul_of_nonneg_left (by omega) hx
  have hpos : 0 ≤ x * w := Int.mul_nonneg hx (by omega)
  simp only [weigh]
  omega

/-- R101: a negative weighted sample lies between the sample and 0. -/
theorem weigh_neg {w : Nat} {x : Int} (hw : w ≤ 65536) (hx : x < 0) : x ≤ weigh (some w) x ∧ weigh (some w) x ≤ 0 := by
  have hmul : x * 65536 ≤ x * w := Int.mul_le_mul_of_nonpos_left hx.le (by omega)
  have hneg : x * w ≤ 0 := Int.mul_nonpos_of_nonpos_of_nonneg hx.le (by omega)
  simp only [weigh]
  omega

end Sys2Proof.Machine

namespace Sys2Proof.Settled

open Sys2Proof.Machine

/-- Settles O46: by induction on the sources, every visit hands over the take block as take memory holds it, held or read. -/
theorem assemblyBuilds : Obligations.AssemblyBuilds := by
  unfold Obligations.AssemblyBuilds
  exact ⟨fun m f src held held' reads xs ht hb => buildBlock_complete ht hb, fun k f => ⟨rfl, fadeWeight_bounds⟩,
    fun w x => ⟨weigh_some w x, rfl⟩, fun w x hw => ⟨weigh_nonneg hw, weigh_neg hw⟩⟩

end Sys2Proof.Settled
end

section
/-! SUPPORT. R113, R114, R125: the searches that give the levels and the gain factor, and their integer tests as the inequalities
between real numbers that the rules write. -/

namespace Sys2Proof.Machine

/-! ### The least number that passes a test -/

theorem firstFrom_bounds (p : Nat → Bool) (n k : Nat) : k ≤ firstFrom p n k ∧ firstFrom p n k ≤ k + n := by
  induction n generalizing k with
  | zero => exact ⟨le_rfl, le_rfl⟩
  | succ n ih =>
    unfold firstFrom
    split
    · exact ⟨le_rfl, Nat.le_add_right ..⟩
    · have := ih (k + 1)
      omega

/-- A test that a greater number passes whenever a smaller one does: the search is at or before exactly the numbers that pass. -/
theorem firstFrom_le_iff {p : Nat → Bool} (hp : ∀ i j, i ≤ j → p i = true → p j = true) {n k j : Nat} (hk : k ≤ j)
    (hj : j < k + n) : firstFrom p n k ≤ j ↔ p j = true := by
  induction n generalizing k with
  | zero => omega
  | succ n ih =>
    unfold firstFrom
    split
    · next h => exact iff_of_true hk (hp k j hk h)
    · next h =>
      rcases hk.eq_or_lt with rfl | hlt
      · exact iff_of_false (Nat.not_le.2 (firstFrom_bounds p n (k + 1)).1) h
      · exact ih hlt (by omega)

/-! ### The level of an energy -/

/-- A power of ten with an exponent in steps of 1/200, to the power 200. -/
theorem ten_rpow_pow (t : Int) : ((10 : ℝ) ^ ((t : ℝ) / 200)) ^ 200 = (10 : ℝ) ^ t := by
  rw [← Real.rpow_mul_natCast (by norm_num), ← Real.rpow_intCast]
  norm_num

/-- R113: the integer test is the rule's inequality, both sides to the power 200. -/
theorem energyAtLeast_iff (e k : Nat) :
    energyAtLeast e k = true ↔ (2 : ℝ) ^ 46 * (10 : ℝ) ^ ((2 * ((-k : Int) : ℝ) - 1) / 200) ≤ (e : ℝ) := by
  have hexp : (2 * ((-k : Int) : ℝ) - 1) / 200 = ((-(2 * k + 1 : Nat) : Int) : ℝ) / 200 := by
    push_cast
    ring
  calc energyAtLeast e k = true
      ↔ ((2 : ℝ) ^ 46) ^ 200 ≤ (e : ℝ) ^ 200 * 10 ^ (2 * k + 1) := by
        rw [energyAtLeast, decide_eq_true_eq, ← pow_mul, ← Nat.cast_le (α := ℝ), Nat.cast_mul, Nat.cast_pow, Nat.cast_pow,
          Nat.cast_pow, Nat.cast_ofNat, Nat.cast_ofNat]
    _ ↔ ((2 : ℝ) ^ 46 * (10 : ℝ) ^ ((2 * ((-k : Int) : ℝ) - 1) / 200)) ^ 200 ≤ (e : ℝ) ^ 200 := by
        rw [hexp, mul_pow, ten_rpow_pow, zpow_neg, zpow_natCast, mul_inv_le_iff₀ (by positivity)]
    _ ↔ _ := pow_le_pow_iff_left₀ (by positivity) (by positivity) (by norm_num)

theorem energyAtLeast_mono (e i j : Nat) (hij : i ≤ j) (h : energyAtLeast e i = true) : energyAtLeast e j = true := by
  rw [energyAtLeast, decide_eq_true_eq] at h ⊢
  exact le_trans h (Nat.mul_le_mul_left _ (Nat.pow_le_pow_right (by omega) (by omega)))

theorem energyLevel_bounds (e : Nat) : -900 ≤ energyLevel e ∧ energyLevel e ≤ 0 := by
  have := firstFrom_bounds (energyAtLeast e) 900 0
  unfold energyLevel
  omega

/-- R113: the level is the greatest number from −899 to 0 whose threshold the energy reaches. -/
theorem le_energyLevel_iff (e : Nat) {n : Int} (hlo : -899 ≤ n) (hhi : n ≤ 0) :
    n ≤ energyLevel e ↔ (2 : ℝ) ^ 46 * (10 : ℝ) ^ ((2 * (n : ℝ) - 1) / 200) ≤ (e : ℝ) := by
  obtain ⟨k, rfl⟩ := Int.exists_eq_neg_ofNat hhi
  rw [energyLevel, neg_le_neg_iff, Nat.cast_le, firstFrom_le_iff (energyAtLeast_mono e) (Nat.zero_le k) (by omega),
    energyAtLeast_iff]

theorem energyLevel_mono {e e' : Nat} (h : e ≤ e') : energyLevel e ≤ energyLevel e' := by
  obtain ⟨hlo, hhi⟩ := energyLevel_bounds e
  rcases hlo.eq_or_lt with heq | hlt
  · exact heq.symm.trans_le (energyLevel_bounds e').1
  · have hreached := (le_energyLevel_iff e (by omega) hhi).1 le_rfl
    exact (le_energyLevel_iff e' (by omega) hhi).2 (hreached.trans (Nat.cast_le.2 h))

/-- R113: no energy at all has the lowest level. -/
theorem energyLevel_zero : energyLevel 0 = -900 := by
  have hnot : ¬ -899 ≤ energyLevel 0 := by
    rw [le_energyLevel_iff 0 le_rfl (by omega), Nat.cast_zero, not_le]
    positivity
  have := (energyLevel_bounds 0).1
  omega

/-- A threshold of R113, on the scale of logarithms. -/
theorem threshold_le_iff_logb {e : ℝ} (he : 0 < e) (n : ℝ) :
    (2 : ℝ) ^ 46 * (10 : ℝ) ^ ((2 * n - 1) / 200) ≤ e ↔ n ≤ 100 * Real.logb 10 (e / 2 ^ 46) + 1 / 2 := by
  rw [mul_comm, ← le_div_iff₀ (by positivity), ← Real.le_logb_iff_rpow_le (by norm_num) (by positivity)]
  constructor <;> intro h <;> linarith

/-- R113: the level is the nearest integer, a halfway value rounding up, and at least −900. -/
theorem energyLevel_eq_floor {e : Nat} (hpos : 1 ≤ e) (hle : e ≤ 2 ^ 46) :
    energyLevel e = max (-900) ⌊100 * Real.logb 10 ((e : ℝ) / 2 ^ 46) + 1 / 2⌋ := by
  have he : (0 : ℝ) < e := Nat.cast_pos.2 hpos
  have hfloor : ⌊100 * Real.logb 10 ((e : ℝ) / 2 ^ 46) + 1 / 2⌋ ≤ 0 := by
    have hle' : (e : ℝ) ≤ 2 ^ 46 := mod_cast hle
    have hlog : Real.logb 10 ((e : ℝ) / 2 ^ 46) ≤ 0 :=
      Real.logb_nonpos (by norm_num) (by positivity) (div_le_one_of_le₀ hle' (by positivity))
    rw [← Int.lt_add_one_iff, Int.floor_lt]
    push_cast
    linarith
  obtain ⟨hlo, hhi⟩ := energyLevel_bounds e
  refine eq_of_forall_le_iff fun n => ?_
  rcases le_or_gt n (-900) with hn | hn
  · exact iff_of_true (hn.trans hlo) (hn.trans (le_max_left ..))
  rcases le_or_gt n 0 with hn0 | hn0
  · rw [le_energyLevel_iff e (by omega) hn0, threshold_le_iff_logb he, ← Int.le_floor, le_max_iff,
      or_iff_right (not_le.2 hn)]
  · exact iff_of_false (by omega) (by omega)

theorem energyLevel_full : energyLevel (2 ^ 46) = 0 := by
  rw [energyLevel_eq_floor (by norm_num) le_rfl]
  norm_num

/-! ### The peak level -/

/-- R114: the test of a magnitude is R113's test of the magnitude's energy. -/
theorem peakAtLeast_eq (p : Nat) : peakAtLeast p = energyAtLeast (p ^ 2) := by
  funext k
  rw [peakAtLeast, energyAtLeast, ← pow_mul]

theorem peakLevel_eq_energyLevel (p : Nat) : peakLevel p = energyLevel (p ^ 2) := by
  rw [peakLevel, peakAtLeast_eq, energyLevel]

/-- R114: the peak level is the greatest number from −899 to 0 whose threshold the magnitude reaches. -/
theorem le_peakLevel_iff (p : Nat) {n : Int} (hlo : -899 ≤ n) (hhi : n ≤ 0) :
    n ≤ peakLevel p ↔ (8388608 : ℝ) * (10 : ℝ) ^ ((2 * (n : ℝ) - 1) / 400) ≤ (p : ℝ) := by
  have hsq : (2 : ℝ) ^ 46 * (10 : ℝ) ^ ((2 * (n : ℝ) - 1) / 200) =
      ((8388608 : ℝ) * (10 : ℝ) ^ ((2 * (n : ℝ) - 1) / 400)) ^ 2 := by
    rw [mul_pow, ← Real.rpow_mul_natCast (by norm_num)]
    have hexp : (2 * (n : ℝ) - 1) / 400 * (2 : Nat) = (2 * (n : ℝ) - 1) / 200 := by
      push_cast
      ring
    rw [hexp]
    norm_num
  rw [peakLevel_eq_energyLevel, le_energyLevel_iff _ hlo hhi, hsq, Nat.cast_pow,
    pow_le_pow_iff_left₀ (by positivity) (by positivity) (by norm_num)]

/-- R114: the peak level is the nearest integer, a halfway value rounding up, and at least −900. -/
theorem peakLevel_eq_floor {p : Nat} (hpos : 1 ≤ p) (hle : p ≤ 8388608) :
    peakLevel p = max (-900) ⌊200 * Real.logb 10 ((p : ℝ) / 8388608) + 1 / 2⌋ := by
  have hsq : ((p ^ 2 : Nat) : ℝ) / 2 ^ 46 = ((p : ℝ) / 8388608) ^ 2 := by
    push_cast
    rw [div_pow]
    norm_num
  have hle' : p ^ 2 ≤ 2 ^ 46 := (Nat.pow_le_pow_left hle 2).trans (by norm_num)
  rw [peakLevel_eq_energyLevel, energyLevel_eq_floor (Nat.one_le_pow 2 p hpos) hle', hsq, Real.logb_pow, Nat.cast_ofNat,
    ← mul_assoc]
  norm_num

/-! ### The gain factor -/

/-- A test that is passed where the search starts and failed past its end: the search ends at a number that passes while the next
one fails. -/
theorem greatest_spec {p : Nat → Bool} {n acc : Nat} (hacc : p acc = true) (hend : ¬ p (acc + 2 ^ n) = true) :
    p (greatest p n acc) = true ∧ ¬ p (greatest p n acc + 1) = true := by
  induction n generalizing acc with
  | zero => exact ⟨hacc, hend⟩
  | succ n ih =>
    unfold greatest
    split
    · next h => exact ih h (by rwa [add_assoc, ← two_mul, ← pow_succ'])
    · next h => exact ih hacc h

/-- R125: the integer test is the rule's inequality, both sides doubled and to the power 200. -/
theorem factorAtMost_iff (g : Int) (q : Nat) :
    factorAtMost g q = true ↔ (q : ℝ) ≤ (10 : ℝ) ^ ((g : ℝ) / 200) * 2 ^ 20 + 1 / 2 := by
  have htest : factorAtMost g q = true ↔ ((2 * q - 1 : Nat) : ℝ) ^ 200 ≤ (10 : ℝ) ^ g * (2 ^ 21) ^ 200 := by
    rw [factorAtMost, ← pow_mul]
    split
    · next hg =>
      obtain ⟨k, rfl⟩ := Int.eq_ofNat_of_zero_le hg
      rw [decide_eq_true_eq, ← Nat.cast_le (α := ℝ), zpow_natCast, Int.toNat_natCast, Nat.cast_mul, Nat.cast_pow, Nat.cast_pow,
        Nat.cast_pow, Nat.cast_ofNat, Nat.cast_ofNat]
    · next hg =>
      obtain ⟨k, rfl⟩ := Int.exists_eq_neg_ofNat (not_le.1 hg).le
      rw [decide_eq_true_eq, ← Nat.cast_le (α := ℝ), neg_neg, zpow_neg, zpow_natCast, Int.toNat_natCast, Nat.cast_mul,
        Nat.cast_pow, Nat.cast_pow, Nat.cast_pow, Nat.cast_ofNat, Nat.cast_ofNat, ← le_inv_mul_iff₀' (by positivity)]
  have hdouble : ((2 * q - 1 : Nat) : ℝ) ≤ (10 : ℝ) ^ ((g : ℝ) / 200) * 2 ^ 21 ↔
      (q : ℝ) ≤ (10 : ℝ) ^ ((g : ℝ) / 200) * 2 ^ 20 + 1 / 2 := by
    have hpos : 0 < (10 : ℝ) ^ ((g : ℝ) / 200) := by positivity
    rcases Nat.eq_zero_or_pos q with rfl | hq
    · exact iff_of_true (by simpa using hpos.le) (by push_cast; positivity)
    · rw [Nat.cast_sub (by omega)]
      push_cast
      constructor <;> intro h <;> linarith
  rw [htest, ← hdouble, ← ten_rpow_pow, ← mul_pow,
    pow_le_pow_iff_left₀ (Nat.cast_nonneg _) (by positivity) (by norm_num)]

/-- R125: the factors of the gains that the rules allow need no more than the 25 digits that the search finds. -/
theorem factor_lt {g : Int} (hg : g ≤ 240) : (10 : ℝ) ^ ((g : ℝ) / 200) * 2 ^ 20 + 1 / 2 < 2 ^ 25 := by
  have hpow : ((10 : ℝ) ^ ((g : ℝ) / 200)) ^ 200 < 31 ^ 200 := by
    rw [ten_rpow_pow]
    calc (10 : ℝ) ^ g ≤ 10 ^ (240 : Int) := zpow_le_zpow_right₀ (by norm_num) hg
      _ < 31 ^ 200 := by norm_num
  have := lt_of_pow_lt_pow_left₀ 200 (by norm_num) hpow
  linarith

/-- R125: the gain factor is the nearest integer, a halfway value rounding up. -/
theorem gainFactor_eq_floor {g : Int} (hg : g ≤ 240) :
    (gainFactor g : Int) = ⌊(10 : ℝ) ^ ((g : ℝ) / 200) * 2 ^ 20 + 1 / 2⌋ := by
  have hstart : factorAtMost g 0 = true := by
    rw [factorAtMost_iff, Nat.cast_zero]
    positivity
  have hend : ¬ factorAtMost g (0 + 2 ^ 25) = true := by
    rw [factorAtMost_iff, not_le]
    exact (factor_lt hg).trans_eq (by norm_num)
  obtain ⟨hlast, hnext⟩ := greatest_spec hstart hend
  rw [factorAtMost_iff] at hlast
  rw [factorAtMost_iff, not_le, Nat.cast_add_one] at hnext
  exact (Int.floor_eq_iff.2 ⟨hlast, hnext⟩).symm

theorem gainFactor_mono {g g' : Int} (h : g ≤ g') (hg' : g' ≤ 240) : gainFactor g ≤ gainFactor g' := by
  rw [← Int.ofNat_le, gainFactor_eq_floor (h.trans hg'), gainFactor_eq_floor hg']
  refine Int.floor_le_floor ?_
  have hle : (g : ℝ) / 200 ≤ (g' : ℝ) / 200 := by
    have : (g : ℝ) ≤ g' := Int.cast_le.2 h
    linarith
  have := Real.rpow_le_rpow_of_exponent_le (by norm_num : (1 : ℝ) ≤ 10) hle
  linarith

/-- R125: the values that the rule works out. -/
theorem gainFactor_values : gainFactor (-200) = 104858 ∧ gainFactor (-60) = 525533 ∧ gainFactor 0 = 2 ^ 20 ∧
    gainFactor 1 = 1060718 ∧ gainFactor 22 = 1350828 ∧ gainFactor 60 = 2092184 ∧ gainFactor 240 = 16618810 := by
  decide +kernel

/-- R126: the factor of a gain of 0 leaves a sample as it is. -/
theorem gained_zero (x : Int) : gained (gainFactor 0) x = x := by
  obtain ⟨_, _, hzero, _⟩ := gainFactor_values
  rw [gained, hzero]
  push_cast
  omega

theorem saturate_of_bounds {y : Int} (hlo : -8388608 ≤ y) (hhi : y ≤ 8388607) : saturate y = y := by
  rw [saturate, if_neg (not_lt.2 hhi), if_neg (not_lt.2 hlo)]

theorem gainBlock_zero {xs : List Int} (h : ∀ x ∈ xs, -8388608 ≤ x ∧ x ≤ 8388607) : gainBlock (gainFactor 0) xs = xs := by
  rw [gainBlock, List.map_congr_left, List.map_id]
  intro x hx
  obtain ⟨hlo, hhi⟩ := h x hx
  rw [gained_zero, saturate_of_bounds hlo hhi, id]

end Sys2Proof.Machine

namespace Sys2Proof.Settled

open Sys2Proof.Machine

/-- Settles O47: the integer tests of the searches are the rule's inequalities, and a magnitude's test is its energy's. -/
theorem levels : Obligations.Levels := by
  unfold Obligations.Levels
  exact ⟨⟨fun e => energyLevel_eq_floor, energyLevel_zero, energyLevel_full, energyLevel_bounds,
      fun e n => le_energyLevel_iff e, fun e e' => energyLevel_mono⟩,
    fun p => peakLevel_eq_floor, by rw [peakLevel_eq_energyLevel]; exact energyLevel_zero,
    by rw [peakLevel_eq_energyLevel]; exact energyLevel_full, fun p n => le_peakLevel_iff p, peakLevel_eq_energyLevel⟩

/-- Settles O48: the digit search ends at the last number that R125's inequality lets pass. -/
theorem gainFactor : Obligations.GainFactor := by
  unfold Obligations.GainFactor
  obtain ⟨hleast, _, _, _, _, _, hgreatest⟩ := gainFactor_values
  exact ⟨fun g hlo hhi => ⟨gainFactor_eq_floor hhi, hleast ▸ gainFactor_mono hlo hhi, hgreatest ▸ gainFactor_mono hhi le_rfl⟩,
    gainFactor_values, fun l lint lp => rfl, gained_zero, fun xs => gainBlock_zero⟩

end Sys2Proof.Settled
end

section
/-! SUPPORT. R115 to R124, R126, R127: what a block makes of the meter, the bins that a gate lets pass, the samples of the gain stage,
and the gain record with its bounds. -/

namespace Sys2Proof.Machine

/-! ### The meter -/

/-- R115, R116: the samples of a block raise the peak and extend the open quad. -/
theorem foldl_addSample (m : Meter) (xs : List Int) :
    xs.foldl Meter.addSample m = ⟨xs.foldl (fun p x => max p x.natAbs) m.peak, m.quadSum + (xs.map (fun x => x.natAbs ^ 2)).sum,
      m.quadCount + xs.length, m.bins⟩ := by
  induction xs generalizing m with
  | nil => rfl
  | cons x xs ih =>
    rw [List.foldl_cons, ih, List.foldl_cons, List.map_cons, List.sum_cons, List.length_cons, ← Nat.add_assoc,
      Nat.add_comm xs.length, ← Nat.add_assoc]
    rfl

/-! ### The bins that a gate lets pass -/

theorem drop_range_eq_filter (k n : Nat) : (List.range n).drop k = (List.range n).filter (fun i => decide (k ≤ i)) := by
  induction n with
  | zero => exact List.drop_nil
  | succ n ih =>
    rw [List.range_succ, List.drop_append, List.filter_append, ih, List.length_range, List.filter_singleton]
    by_cases h : k ≤ n
    · rw [Nat.sub_eq_zero_of_le h, List.drop_zero, decide_eq_true h, cond_true]
    · rw [List.drop_of_length_le (by rw [List.length_singleton]; omega), decide_eq_false h, cond_false]

theorem eq_map_getD_range {α : Type} (xs : List α) (d : α) : xs = (List.range xs.length).map (fun n => xs.getD n d) := by
  refine List.ext_getElem (by simp) fun i hi _ => ?_
  simp [hi]

/-- R118, R120: the bins from a level on are those whose level is at least that level. -/
theorem binsFrom_eq {bins : List Bin} (hlen : bins.length = 901) (least : Int) :
    binsFrom bins least =
      ((List.range 901).filter (fun (n : Nat) => decide (least ≤ (n : Int) - 900))).map (fun n => bins.getD n ⟨0, 0⟩) := by
  have hplace : ∀ n : Nat, binPlace least ≤ n ↔ least ≤ (n : Int) - 900 := by
    intro n
    unfold binPlace
    omega
  calc binsFrom bins least
      = ((List.range 901).map (fun n => bins.getD n ⟨0, 0⟩)).drop (binPlace least) := by
        rw [binsFrom, ← hlen, ← eq_map_getD_range]
    _ = _ := by simp only [← List.map_drop, drop_range_eq_filter, hplace]

/-! ### The gain stage -/

theorem saturate_eq (y : Int) : saturate y = max (-8388608) (min 8388607 y) := by
  unfold saturate
  split
  · omega
  · split <;> omega

/-- R127: a sample is saturated where the gain takes it out of range. -/
theorem saturate_ne_iff (y : Int) : saturate y ≠ y ↔ y < -8388608 ∨ 8388607 < y := by
  rw [saturate_eq]
  omega

/-- R126: the product is rounded to the nearest integer, halfway up. -/
theorem gained_eq_floor (q : Nat) (x : Int) : gained q x = ⌊((x : ℚ) * q + 524288) / 1048576⌋ := by
  have h := Rat.floor_intCast_div_natCast (x * q + 524288) 1048576
  push_cast at h
  exact h.symm

/-! ### The gain record -/

/-- R121: the raw gain. -/
def rawGain (l : Loudness) : Option Int → Int
  | none => 0
  | some x => l.target - x

/-- R121: the raw gain clamped to −200 to 240. -/
def clampedGain (l : Loudness) (lint : Option Int) : Int := max (-200) (min 240 (rawGain l lint))

section
variable (l : Loudness) (lint : Option Int) (lp : Int)

theorem clampTo_rawGain : clampTo (-200) 240 (rawGain l lint) = clampedGain l lint := clamp_eq _ _ _ (by omega)

/-- R121, R122: the gain. -/
theorem gainRecord_g :
    (gainRecord l lint lp).g = if l.ceiling < lp + clampedGain l lint then l.ceiling - lp else clampedGain l lint := by
  have h : (gainRecord l lint lp).g = if decide (l.ceiling < lp + clampTo (-200) 240 (rawGain l lint)) = true then l.ceiling - lp
      else clampTo (-200) 240 (rawGain l lint) := by
    cases lint <;> rfl
  rw [h, clampTo_rawGain]
  simp only [decide_eq_true_eq]

theorem gainRecord_gainClamped : (gainRecord l lint lp).gainClamped = true ↔ clampedGain l lint ≠ rawGain l lint := by
  have h : (gainRecord l lint lp).gainClamped = decide (clampTo (-200) 240 (rawGain l lint) ≠ rawGain l lint) := by
    cases lint <;> rfl
  rw [h, decide_eq_true_iff, clampTo_rawGain]

theorem gainRecord_peakLimited : (gainRecord l lint lp).peakLimited = true ↔ l.ceiling < lp + clampedGain l lint := by
  have h : (gainRecord l lint lp).peakLimited = decide (l.ceiling < lp + clampTo (-200) 240 (rawGain l lint)) := by
    cases lint <;> rfl
  rw [h, decide_eq_true_iff, clampTo_rawGain]

theorem gainRecord_silent : (gainRecord l lint lp).silent = true ↔ lint = none := Option.isNone_iff_eq_none

theorem gainRecord_underTarget (x : Int) : (gainRecord l (some x) lp).underTarget = true ↔
    (gainRecord l (some x) lp).lout < l.target - l.tolerance :=
  decide_eq_true_iff (p := (gainRecord l (some x) lp).lout < l.target - l.tolerance)

/-- R122: the peak check keeps the gained peak under the ceiling and only lowers the gain. -/
theorem gainRecord_g_le : lp + (gainRecord l lint lp).g ≤ l.ceiling ∧ (gainRecord l lint lp).g ≤ clampedGain l lint := by
  rw [gainRecord_g]
  split <;> omega

theorem clampedGain_bounds : -200 ≤ clampedGain l lint ∧ clampedGain l lint ≤ 240 := by
  unfold clampedGain
  omega

/-- R122: a ceiling of at least −100 and a peak level of at most 0 leave the gain at −200 or above. -/
theorem le_gainRecord_g (hc : -100 ≤ l.ceiling) (hp : lp ≤ 0) : -200 ≤ (gainRecord l lint lp).g := by
  have := clampedGain_bounds l lint
  rw [gainRecord_g]
  split <;> omega

end

end Sys2Proof.Machine

namespace Sys2Proof.Settled

open Sys2Proof.Machine

/-- Settles O49: the bins from a gate on are those that reach it, the rounding and the clamps are the rule's own, and the peak check
only lowers the clamped gain. -/
theorem meterAndGain : Obligations.MeterAndGain := by
  unfold Obligations.MeterAndGain
  refine ⟨fun m xs => ⟨foldl_addSample m xs, ?_⟩, fun bins gate hlen _ _ => ?_, fun q xs => ⟨?_, ?_⟩, fun l lint lp => ?_⟩
  · intro e
    rw [Meter.addBlock, if_pos rfl, foldl_addSample]
    rfl
  · intro from_ count mean
    have hcount : ∀ least, countOf (binsFrom bins least) = count least := fun least => by
      rw [binsFrom_eq hlen, countOf, List.map_map]
      rfl
    have hmean : ∀ least, meanOf (binsFrom bins least) = mean least := fun least => by
      rw [meanOf, hcount, binsFrom_eq hlen, List.map_map]
      rfl
    rw [integrated, hcount, hmean, hmean]
  · simp only [gainBlock, saturate_eq, gained_eq_floor]
  · simp only [saturations, saturate_ne_iff, gained_eq_floor]
  · intro raw clamped r
    have hg := gainRecord_g_le l lint lp
    have hbounds := clampedGain_bounds l lint
    refine ⟨gainRecord_g l lint lp, gainRecord_gainClamped l lint lp, gainRecord_peakLimited l lint lp,
      gainRecord_silent l lint lp, rfl, rfl, rfl, ?_, ?_, hg.1, hg.2.trans hbounds.2, le_gainRecord_g l lint lp, ?_⟩
    · rintro rfl
      exact ⟨rfl, rfl⟩
    · rintro x rfl
      exact ⟨rfl, gainRecord_underTarget l lp x⟩
    · rintro x rfl hx
      exact (Int.add_le_add_right hx r.g).trans hg.1

end Sys2Proof.Settled
end

section
/-! SUPPORT. R132 to R144, R146, R147: the class and the rate control of a frame, the pages that are drawn for it, where image bytes
stand, and the bytes of an image header. -/

namespace Sys2Proof.Machine

/-! ### The class and the rate control -/

theorem isVoiced_iff (silence : Int) (ys : List Int) : isVoiced silence ys = true ↔ silence ≤ energyLevel (energyOf ys) :=
  decide_eq_true_iff.trans not_lt

namespace Encoder

section
variable (e : Encoder) (v : Bool)

theorem starvesFrame_iff : e.starvesFrame v = true ↔ e.grant v < e.demand v := decide_eq_true_iff

/-- R134, R135: a frame is starved exactly if its demand is more than the sustained budget and the credit. -/
theorem grant_lt_demand_iff : e.grant v < e.demand v ↔ e.profile.bsus + e.credit < e.demand v := by
  rw [grant, min_lt_iff, or_iff_right (lt_irrefl _)]

theorem nextStarved_iff (credit : Nat) : e.nextStarved credit = true ↔
    if e.starved = true then credit < e.profile.ts + e.profile.d else credit < e.profile.ts := by
  unfold nextStarved
  split <;> exact decide_eq_true_iff

theorem crossing_eq (n : Nat) : e.crossing v n =
    if e.starved = false ∧ e.nextStarved (e.nextCredit v) = true then some (.starve e.rendition n)
    else if e.starved = true ∧ e.nextStarved (e.nextCredit v) = false then some (.restore e.rendition n false)
    else none := by
  unfold crossing
  cases e.starved <;> cases e.nextStarved (e.nextCredit v) <;> rfl

/-- R136: there is no crossing exactly if the starve state stays. -/
theorem crossing_eq_none_iff (n : Nat) : e.crossing v n = none ↔ e.nextStarved (e.nextCredit v) = e.starved := by
  unfold crossing
  cases e.starved <;> cases e.nextStarved (e.nextCredit v) <;> simp

/-- R141: the four bytes of the frame header, then the payload. -/
theorem frameBytes_eq (ys : List Int) : e.frameBytes v ys =
    [0x5A#8, BitVec.ofNat 8 ((if v then 1 else 0) + if e.starvesFrame v then 2 else 0), BitVec.ofNat 8 (e.grant v),
      BitVec.ofNat 8 (e.grant v / 256)] ++ e.payload v ys := by
  simp only [frameBytes, frameFlags, yesNo, mul_ite, mul_one, mul_zero]
  rfl

theorem length_payload (ys : List Int) : (e.payload v ys).length = e.grant v := by
  rw [payload, List.length_map, List.length_range]

theorem length_frameBytes (ys : List Int) : (e.frameBytes v ys).length = 4 + e.grant v := by
  rw [frameBytes_eq, List.length_append, length_payload]
  rfl

end

section
variable {e : Encoder} (h : Profile.inRange e.profile = true)
include h

/-- R7, R134: under the ranges of a profile the sustained budget alone covers the least frame. -/
theorem grant_bounds (v : Bool) : e.profile.bmin ≤ e.grant v ∧ e.grant v ≤ e.profile.bpeak := by
  obtain ⟨_, ⟨hsus, _, _⟩, ⟨hpeak, _⟩, _⟩ := (Profile.inRange_iff _).1 h
  unfold grant demand
  split <;> omega

theorem grant_silent : e.grant false = e.profile.bmin := by
  obtain ⟨_, ⟨hsus, _, _⟩, _⟩ := (Profile.inRange_iff _).1 h
  exact min_eq_left (hsus.trans (Nat.le_add_right ..))

theorem starvesFrame_silent : e.starvesFrame false = false :=
  decide_eq_false (by rw [grant_silent h]; exact lt_irrefl _)

end

end Encoder

theorem endedRestores_eq (es : List Encoder) :
    endedRestores es = (es.filter (fun e => e.starved)).map (fun e => .restore e.rendition (e.frames - 1) true) := by
  rw [endedRestores, ← List.filterMap_eq_map, List.filterMap_filter]
  rfl

/-! ### The pages that a frame needs -/

section
variable (v : Bool) (es : List Encoder) (pool : List Nat)

/-- R144, R145: the pages are drawn exactly if the pool has one for each encoder that needs one. -/
theorem drawPages_drawn_iff :
    (drawPages v es pool).2.2 = true ↔ (es.filter (fun e => e.needsPage v)).length ≤ pool.length := by
  fun_induction drawPages v es pool with
  | case1 => simp
  | case2 e es hneed => simp [hneed]
  | case3 e es hneed g pool ih => simp [hneed, ih]
  | case4 pool e es hneed ih => simp [hneed, ih]

/-- R144: the pages leave the pool at its head. -/
theorem drawPages_pool : (drawPages v es pool).2.1 = pool.drop (es.filter (fun e => e.needsPage v)).length := by
  fun_induction drawPages v es pool with
  | case1 => simp
  | case2 e es hneed => simp
  | case3 e es hneed g pool ih => simp [hneed, ih]
  | case4 pool e es hneed ih => simp [hneed, ih]

/-- Only the page lists change. -/
theorem drawPages_otherwise : (drawPages v es pool).1.map (fun e => { e with pages := [] }) =
    es.map (fun e => { e with pages := [] }) := by
  fun_induction drawPages v es pool with
  | case1 => rfl
  | case2 => rfl
  | case3 e es hneed g pool ih => simp [ih]
  | case4 pool e es hneed ih => simp [ih]

/-- No page is lost or made. -/
theorem drawPages_perm : ((drawPages v es pool).1.flatMap (fun e => e.pages) ++ (drawPages v es pool).2.1).Perm
    (es.flatMap (fun e => e.pages) ++ pool) := by
  fun_induction drawPages v es pool with
  | case1 => exact .refl _
  | case2 => exact .refl _
  | case3 e es hneed g pool ih =>
    simp only [List.flatMap_cons, List.append_assoc, List.singleton_append]
    exact ((ih.cons g).trans List.perm_middle.symm).append_left _
  | case4 pool e es hneed ih =>
    simp only [List.flatMap_cons, List.append_assoc]
    exact ih.append_left _

/-- R140, R144: each encoder draws, if it needs a page, the one behind those that the encoders before it need. -/
theorem drawPages_getElem? (hd : (drawPages v es pool).2.2 = true) {j : Nat} {e : Encoder} (hj : es[j]? = some e) :
    ∃ e', (drawPages v es pool).1[j]? = some e' ∧ e'.pages = e.pages ++
      if e.needsPage v = true then (pool.drop ((es.take j).filter (fun e => e.needsPage v)).length).take 1 else [] := by
  fun_induction drawPages v es pool generalizing j with
  | case1 => cases hj
  | case2 => cases hd
  | case3 x es hneed g pool ih =>
    cases j with
    | zero =>
      cases hj
      exact ⟨_, rfl, by simp [hneed]⟩
    | succ j => simpa [hneed] using ih hd hj
  | case4 pool x es hneed ih =>
    cases j with
    | zero =>
      cases hj
      exact ⟨_, rfl, by simp [hneed]⟩
    | succ j => simpa [hneed] using ih hd hj

end

/-! ### Image bytes -/

theorem imageAddress_eq_some_iff {pages : List Nat} {o a : Nat} :
    imageAddress pages o = some a ↔ pages[o / 4096]? = some (a / 4096) ∧ o % 4096 = a % 4096 := by
  rw [imageAddress, Option.map_eq_some_iff]
  constructor
  · rintro ⟨g, hg, rfl⟩
    rw [show (g * 4096 + o % 4096) / 4096 = g by omega]
    exact ⟨hg, by omega⟩
  · rintro ⟨hg, ho⟩
    exact ⟨_, hg, by omega⟩

/-- R143: an address of an image lies in one of its pages. -/
theorem mem_of_imageAddress {pages : List Nat} {o a : Nat} (h : imageAddress pages o = some a) : a / 4096 ∈ pages :=
  List.mem_of_getElem? (imageAddress_eq_some_iff.1 h).1

/-- R143: where no page stands twice, an address holds one image offset. -/
theorem imageAddress_inj {pages : List Nat} (hp : pages.Nodup) {o o' a : Nat} (h : imageAddress pages o = some a)
    (h' : imageAddress pages o' = some a) : o = o' := by
  obtain ⟨hpage, hoff⟩ := imageAddress_eq_some_iff.1 h
  obtain ⟨hpage', hoff'⟩ := imageAddress_eq_some_iff.1 h'
  have hlt := (List.getElem?_eq_some_iff.1 hpage).1
  have : o / 4096 = o' / 4096 := (List.getElem?_inj hlt hp).1 (hpage.trans hpage'.symm)
  omega

/-- R143: a byte is stored at the address of its image offset; past the last page it goes nowhere. -/
theorem writeImage_cons (m : Memory) (pages : List Nat) (off : Nat) (b : Byte) (bs : List Byte) :
    writeImage m pages off (b :: bs) =
      writeImage ((imageAddress pages off).elim m (fun a => Memory.write m a b)) pages (off + 1) bs := by
  rw [writeImage, imageAddress]
  cases pages[off / 4096]? <;> rfl

/-- A store of image bytes leaves every other address. -/
theorem read_writeImage_other (m : Memory) {pages : List Nat} {off a : Nat} {bs : List Byte}
    (h : ∀ j, j < bs.length → imageAddress pages (off + j) ≠ some a) :
    Memory.read (writeImage m pages off bs) a = Memory.read m a := by
  induction bs generalizing m off with
  | nil => rfl
  | cons b bs ih =>
    rw [writeImage_cons, ih _ fun j hj => by
      rw [Nat.add_right_comm, Nat.add_assoc]
      exact h (j + 1) (Nat.succ_lt_succ hj)]
    cases ha : imageAddress pages off with
    | none => rfl
    | some k => exact Memory.read_write_other m b (by rintro rfl; exact h 0 (Nat.succ_pos _) ha)

/-- R143: bytes stored into an image stand there. -/
theorem stored_writeImage {m : Memory} {pages : List Nat} (hm : Memory.wf m = true) (hp : pages.Nodup) (off : Nat)
    (bs : List Byte) : stored (writeImage m pages off bs) pages off bs := by
  induction bs generalizing m off with
  | nil => exact fun j a hj => absurd hj (Nat.not_lt_zero j)
  | cons b bs ih =>
    rw [writeImage_cons]
    intro j a hj ha
    cases j with
    | zero =>
      rw [Nat.add_zero] at ha
      rw [read_writeImage_other _ fun i _ hi => by have := imageAddress_inj hp ha hi; omega, ha]
      exact Memory.read_write_same a b hm
    | succ j =>
      have hwf : Memory.wf ((imageAddress pages off).elim m (fun a => Memory.write m a b)) = true := by
        cases imageAddress pages off with
        | none => exact hm
        | some k => exact Memory.wf_write k b hm
      rw [show off + (j + 1) = off + 1 + j by omega] at ha
      exact ih hwf (off + 1) j a (Nat.lt_of_succ_lt_succ hj) ha

/-! ### The images of several encoders -/

section
variable (off : Encoder → Nat) (bytes : Encoder → List Byte)

/-- Stores into the images of encoders leave every other address. -/
theorem read_writeImages_other (m : Memory) {es : List Encoder} {a : Nat}
    (h : ∀ e ∈ es, ∀ j, j < (bytes e).length → imageAddress e.pages (off e + j) ≠ some a) :
    Memory.read (es.foldl (fun m e => writeImage m e.pages (off e) (bytes e)) m) a = Memory.read m a := by
  induction es generalizing m with
  | nil => rfl
  | cons e es ih =>
    obtain ⟨he, hes⟩ := List.forall_mem_cons.1 h
    exact (ih _ hes).trans (read_writeImage_other m he)

/-- Where no page stands in two places, what is stored into the image of each encoder stands there. -/
theorem stored_writeImages {m : Memory} (hm : Memory.wf m = true) {es : List Encoder}
    (hp : (es.flatMap (fun e => e.pages)).Nodup) :
    ∀ e ∈ es, stored (es.foldl (fun m e => writeImage m e.pages (off e) (bytes e)) m) e.pages (off e) (bytes e) := by
  induction es generalizing m with
  | nil => exact fun e he => absurd he List.not_mem_nil
  | cons x es ih =>
    rw [List.flatMap_cons, List.nodup_append'] at hp
    obtain ⟨hx, hes, hdisjoint⟩ := hp
    refine List.forall_mem_cons.2 ⟨fun j a hj ha => ?_, ih (wf_writeImage _ _ _ hm) hes⟩
    have hother : ∀ y ∈ es, ∀ i, i < (bytes y).length → imageAddress y.pages (off y + i) ≠ some a := fun y hy i _ hi =>
      hdisjoint (mem_of_imageAddress ha) (List.mem_flatMap_of_mem hy (mem_of_imageAddress hi))
    exact (read_writeImages_other off bytes _ hother).trans (stored_writeImage hm hx _ _ j a hj ha)

end

/-! ### The image header -/

theorem length_headerBytes (catalogue : Nat) (c : ChapterId) (g : GainRecord) (missing : Bool) (length saturated : Nat)
    (e : Encoder) : (headerBytes catalogue c g missing length saturated e).length = 64 := by
  simp [headerBytes]

/-- R147: the flags of an image header, bit by bit. -/
theorem imageFlagsWord_eq (g : GainRecord) (starved missing : Bool) : imageFlagsWord g starved missing =
    (if g.silent then 2 ^ 0 else 0) + (if g.gainClamped then 2 ^ 1 else 0) + (if g.peakLimited then 2 ^ 2 else 0) +
      (if g.underTarget then 2 ^ 3 else 0) + (if starved then 2 ^ 4 else 0) + (if missing then 2 ^ 5 else 0) := by
  simp only [imageFlagsWord, GainRecord.flagsWord_eq, yesNo, mul_ite, mul_one, mul_zero]
  rfl

/-- R147: an image header, field by field. -/
theorem headerBytes_eq (catalogue : Nat) (c : ChapterId) (g : GainRecord) (missing : Bool) (length saturated : Nat)
    (e : Encoder) : headerBytes catalogue c g missing length saturated e =
      [0x47#8, 0x5A#8, 0x43#8, 0x48#8] ++ le 8 catalogue ++ [BitVec.ofNat 8 c.index, BitVec.ofNat 8 e.rendition] ++
      le 2 ((if g.silent then 2 ^ 0 else 0) + (if g.gainClamped then 2 ^ 1 else 0) + (if g.peakLimited then 2 ^ 2 else 0) +
        (if g.underTarget then 2 ^ 3 else 0) + (if e.starved then 2 ^ 4 else 0) + (if missing then 2 ^ 5 else 0)) ++
      [0#8, 0#8] ++ le 4 length ++ le 4 e.frames ++ le 4 e.byteCount ++ le 2 (g.lint % 65536).toNat ++
      le 2 (g.lp % 65536).toNat ++ le 2 (g.g % 65536).toNat ++ le 2 (g.lout % 65536).toNat ++ le 4 e.starvedFrames ++
      le 4 saturated ++ le 2 e.profile.bsus ++ le 2 e.profile.bpeak ++ le 4 (e.crc ^^^ 0xFFFFFFFF#32).toNat ++
      List.replicate 10 0#8 := by
  have hzero : le 2 0 = [0#8, 0#8] := rfl
  simp only [headerBytes, le_one, leI_eq, imageFlagsWord_eq, hzero, List.append_assoc, List.cons_append, List.nil_append]

end Sys2Proof.Machine

namespace Sys2Proof.Settled

open Sys2Proof.Machine

/-- Settles O50: the rate control case by case, the pages by induction on the encoders, and the image bytes by the addresses that
the page lists give them, which differ where no page stands twice. -/
theorem coderTakesFrames : Obligations.CoderTakesFrames := by
  unfold Obligations.CoderTakesFrames
  refine ⟨isVoiced_iff, fun e v ys n => ?_, fun v es pool => ?_, endedRestores_eq, fun m v ys es hm hp => ?_,
    fun m catalogue r g saturated es hm hp => ?_⟩
  · intro demand t
    refine ⟨rfl, rfl, e.starvesFrame_iff v, fun h => ?_, e.nextStarved_iff _, e.crossing_eq v n, ?_, rfl, rfl, rfl, rfl, rfl, rfl,
      rfl, e.payload v ys, e.length_payload v ys, e.frameBytes_eq v ys⟩
    · obtain ⟨hleast, hgreatest⟩ := Encoder.grant_bounds h v
      refine ⟨hleast, hgreatest, ?_, ?_⟩
      · rintro rfl
        exact ⟨Encoder.grant_silent h, Encoder.starvesFrame_silent h⟩
      · rintro rfl
        exact (e.starvesFrame_iff true).trans (e.grant_lt_demand_iff true)
    · simp only [e.crossing_eq_none_iff v n]
      rfl
  · refine ⟨drawPages_drawn_iff v es pool, drawPages_pool v es pool, drawPages_otherwise v es pool, drawPages_perm v es pool,
      fun hd j e hj => ?_⟩
    simpa only [Encoder.needsPage, decide_eq_true_eq] using drawPages_getElem? v es pool hd hj
  · refine ⟨stored_writeImages (fun e => e.byteCount) (fun e => e.frameBytes v ys) hm hp, fun a ha => ?_⟩
    refine read_writeImages_other (fun e => e.byteCount) (fun e => e.frameBytes v ys) m fun e he j hj => ha e he j ?_
    rwa [e.length_frameBytes] at hj
  · intro new bit signed
    have hmissing : decide (r.params.roomTone = none) = r.params.roomTone.isNone := by
      cases r.params.roomTone <;> rfl
    have hlength := length_headerBytes catalogue r.chapter g r.params.roomTone.isNone r.timeline.length saturated
    refine ⟨fun e he => ?_, fun a ha => ?_⟩
    · intro header
      have hheader : header = headerBytes catalogue r.chapter g r.params.roomTone.isNone r.timeline.length saturated e :=
        hmissing ▸ (headerBytes_eq ..).symm
      rw [hheader]
      exact ⟨hlength e, stored_writeImages (fun _ => 0) _ hm hp e he⟩
    · refine read_writeImages_other (fun _ => 0) _ m fun e he j hj => ?_
      rw [Nat.zero_add]
      exact ha e he j (hlength e ▸ hj)

end Sys2Proof.Settled
end

section
/-! SUPPORT. R150: where the pages of rendition memory are. The pages of the lanes and of the published sets, what leaves the pages
where they are, and what moves them. -/

namespace Sys2Proof.Machine

/-! ### The pages of the lanes -/

/-- The pages of the image in progress of a lane. -/
def Lane.pages (l : Lane) : List Nat := l.render.elim [] Render.pages

theorem Lane.pages_idle {l : Lane} (h : l.render = none) : l.pages = [] := by rw [Lane.pages, h, Option.elim_none]

theorem Lane.pages_render {l : Lane} {r : Render} (h : l.render = some r) : l.pages = r.pages := by
  rw [Lane.pages, h, Option.elim_some]

theorem State.lanePages_eq (s : State) : s.lanePages = s.lanes.toList.flatMap Lane.pages := by
  unfold State.lanePages
  congr 1
  funext l
  unfold Lane.pages
  cases l.render <;> rfl

/-- One lane record replaced: its pages go, and those of the new one come. -/
theorem Four.flatMap_pages_set (f : Four Lane) (i : Fin 4) (l : Lane) :
    ((f.set i l).toList.flatMap Lane.pages ++ (f.get i).pages).Perm (f.toList.flatMap Lane.pages ++ l.pages) := by
  refine List.perm_iff_count.2 fun g => ?_
  match i with
  | 0 | 1 | 2 | 3 =>
    simp only [Four.set, Four.get, Four.toList, List.flatMap_cons, List.flatMap_nil, List.count_append, List.count_nil]
    omega

/-- R130: an encoder starts without pages. -/
theorem startEncoders_pages (k : Nat) (ps : List Profile) : (startEncoders k ps).flatMap (fun e => e.pages) = [] := by
  induction ps generalizing k with
  | nil => rfl
  | cons p ps ih => rw [startEncoders, List.flatMap_cons, ih]; rfl

/-! ### The pages of the published sets -/

/-- The pages of all published images. -/
def publishedPages (T : Tab PublishedSet) : List Nat := T.flatMap (fun e => e.2.pages)

/-- The pages of one chapter's set, and those of the other sets. -/
theorem publishedPages_perm {m : RenditionMemory} (hw : Tab.wf m.sets = true) (c : ChapterId) :
    (publishedPages m.sets).Perm (m.setPages c ++ publishedPages (Tab.drop m.sets c.key)) := by
  unfold RenditionMemory.setPages
  split
  · next h => rw [Tab.drop_of_look_none hw h, List.nil_append]
  · next h => exact (Tab.perm_cons_drop hw (Tab.mem_of_look h)).flatMap_right _

theorem publishedPages_put {T : Tab PublishedSet} (hw : Tab.wf T = true) (n : Nat) (p : PublishedSet) :
    (publishedPages (Tab.put T n p)).Perm (p.pages ++ publishedPages (Tab.drop T n)) :=
  (Tab.put_perm n p hw).flatMap_right _

/-- The pages of the sets that pass a test, and those of the others. -/
theorem publishedPages_filter (T : Tab PublishedSet) (f : Nat × PublishedSet → Bool) :
    (publishedPages T).Perm (publishedPages (T.filter f) ++ publishedPages (T.filter fun e => !f e)) := by
  rw [publishedPages, publishedPages, publishedPages, ← List.flatMap_append]
  exact (List.filter_append_perm f T).symm.flatMap_right _

/-- R152: a published set has the pages of the encoders that made it. -/
theorem PublishedSet.pages_images (serial : Nat) (es : List Encoder) :
    PublishedSet.pages { serial := serial, images := es.map Encoder.image } = es.flatMap (fun e => e.pages) :=
  List.flatMap_map ..

/-! ### What leaves the pages where they are, and what moves them -/

/-- `t` has the pool and the published sets of `s`, and each of its lanes the pages of the lane of `s`. -/
structure State.SamePages (s t : State) : Prop where
  pool  : t.rendMem.pool = s.rendMem.pool
  sets  : t.rendMem.sets = s.rendMem.sets
  lanes : ∀ i, (t.lanes.get i).pages = (s.lanes.get i).pages

theorem State.allPages_eq (s : State) :
    s.allPages = s.rendMem.pool ++ publishedPages s.rendMem.sets ++ s.lanes.toList.flatMap Lane.pages := by
  rw [State.allPages, State.lanePages_eq]
  rfl

section
variable {s t : State} {i : Fin 4} {r r' : Render}

/-- One lane record replaced by one that has the same pages. -/
theorem State.SamePages.setLane (hp : t.rendMem.pool = s.rendMem.pool) (hs : t.rendMem.sets = s.rendMem.sets) {l : Lane}
    (hl : t.lanes = s.lanes.set i l) (hi : l.pages = (s.lanes.get i).pages) : State.SamePages s t := by
  refine ⟨hp, hs, fun j => ?_⟩
  rw [hl]
  by_cases hj : j = i
  · rw [hj, Four.get_set_same, hi]
  · rw [Four.get_set_other _ _ hj]

/-- A lane has come to another render with the same pages. -/
theorem State.SamePages.setRender (hp : r'.pages = r.pages) : State.SamePages (s.setRender i r) (s.setRender i r') := by
  refine .setLane (l := { s.lanes.get i with render := some r' }) rfl rfl (Four.set_set ..).symm ?_
  rw [State.setRender_lanes, Four.get_set_same]
  exact hp

namespace State.PageLaw

theorem same (h : s.PageLaw) (hs : State.SamePages s t) : t.PageLaw := by
  have h0 := hs.lanes 0
  have h1 := hs.lanes 1
  have h2 := hs.lanes 2
  have h3 := hs.lanes 3
  simp only [Four.get] at h0 h1 h2 h3
  have hall : t.allPages = s.allPages := by
    simp only [State.allPages_eq, hs.pool, hs.sets, Four.toList, List.flatMap_cons, h0, h1, h2, h3]
  exact ⟨hs.sets ▸ h.1, hall ▸ h.2⟩

/-- Pages move between the pool and the published sets. -/
theorem move (h : s.PageLaw) (hw : Tab.wf t.rendMem.sets = true) (hl : t.lanes = s.lanes)
    (hp : (t.rendMem.pool ++ publishedPages t.rendMem.sets).Perm (s.rendMem.pool ++ publishedPages s.rendMem.sets)) :
    t.PageLaw := by
  refine ⟨hw, .trans ?_ h.2⟩
  rw [State.allPages_eq, State.allPages_eq, hl]
  exact hp.append_right _

/-- Pages move between the pool, the published sets and one lane. -/
theorem moveLane (h : s.PageLaw) (hw : Tab.wf t.rendMem.sets = true) {l : Lane} (hl : t.lanes = s.lanes.set i l)
    (hp : ∀ g, t.rendMem.pool.count g + (publishedPages t.rendMem.sets).count g + l.pages.count g =
      s.rendMem.pool.count g + (publishedPages s.rendMem.sets).count g + (s.lanes.get i).pages.count g) : t.PageLaw := by
  refine ⟨hw, .trans (List.perm_iff_count.2 fun g => ?_) h.2⟩
  have hlanes := (s.lanes.flatMap_pages_set i l).count_eq g
  have hg := hp g
  simp only [List.count_append] at hlanes
  simp only [State.allPages_eq, hl, List.count_append]
  omega

end State.PageLaw

end

end Sys2Proof.Machine
end

section
/-! SUPPORT. R150: every step keeps each page in one place. The ends of renders and of holds, the requests, dispatch and the slots of
the wheel. -/

namespace Sys2Proof.Machine

section
variable {s t : State} {i : Fin 4} {r r' : Render}

namespace State.PageLaw

/-! ### How renders and holds end -/

/-- R30, R92: the pages of a render that ends without a commit join the pool. -/
theorem endLane (h : s.PageLaw) (i : Fin 4) (mark : Render → LastEnd) : (s.endLane i mark).PageLaw := by
  unfold State.endLane
  split
  · exact h
  · next r hr =>
    refine h.moveLane (l := (s.lanes.get i).vacate (mark r)) h.1 rfl fun g => ?_
    rw [Lane.pages_render hr, Lane.pages_idle (l := (s.lanes.get i).vacate (mark r)) rfl]
    simp only [RenditionMemory.free, List.count_append, List.count_nil]
    omega

theorem endRender (h : s.PageLaw) (c : ChapterId) (way : EndWay) : (s.endRender c way).PageLaw := by
  unfold State.endRender
  split
  · exact h
  · exact h.endLane ..

theorem failRender (h : s.PageLaw) (i : Fin 4) (cause : FailCause) (group position : Option Nat) :
    (s.failRender i cause group position).PageLaw := by
  unfold State.failRender
  split
  · exact h
  · exact h.endLane i (Render.failedEnd cause group position)

/-- R152: the pages of the old set join the pool, and those of the lane go to the new set. -/
theorem commit (h : s.PageLaw) (i : Fin 4) : (s.commit i).PageLaw := by
  unfold State.commit
  split
  · exact h
  · next r hr =>
    refine h.moveLane (l := (s.lanes.get i).vacate _) (Tab.wf_put _ _ h.1) rfl fun g => ?_
    have hold := (publishedPages_perm h.1 r.chapter).count_eq g
    have hnew := (publishedPages_put h.1 r.chapter.key
      ⟨s.commitSerial r.chapter, r.stage.encoders.map Encoder.image⟩).count_eq g
    rw [List.count_append] at hold
    rw [List.count_append, PublishedSet.pages_images] at hnew
    rw [Lane.pages_render hr, Lane.pages_idle (l := (s.lanes.get i).vacate _) rfl, Render.pages]
    simp only [RenditionMemory.publish, List.count_append, List.count_nil]
    omega

theorem endHold (h : s.PageLaw) (slot : Nat) : (s.endHold slot).PageLaw := by
  rcases endHold_cases s slot with he | he | ⟨i, _, _, _, he⟩
  · rw [he]; exact h
  · rw [he]; exact h
  · rw [he]; exact State.PageLaw.commit (s := s.withoutHold slot) h i

theorem resetPort (h : s.PageLaw) (p : Port) : (s.resetPort p).PageLaw :=
  foldl_keeps (P := State.PageLaw) (fun _ slot h => endHold h slot) _ h

theorem expireHold (h : s.PageLaw) : s.expireHold.PageLaw := by
  unfold State.expireHold
  split
  · exact h
  · next slot _ _ => exact State.PageLaw.endHold (s := s.changePort _ _) h slot

/-! ### What requests do -/

theorem unqueue (h : s.PageLaw) (c : ChapterId) (k : Chapter) (way : EndWay) : (s.unqueue c k way).PageLaw := by
  unfold State.unqueue
  dsimp only
  split
  · split
    · exact h
    · exact h.endRender c way
  · exact h

theorem editChapter (h : s.PageLaw) (c : ChapterId) (k : Chapter) : (s.editChapter c k).PageLaw := by
  unfold State.editChapter
  dsimp only
  split
  · exact State.PageLaw.endRender (s := s.setChapter c _) h c .aborted
  · exact h

/-- R37: the pages of the chapter's set join the pool. -/
theorem eraseChapter (h : s.PageLaw) (c : ChapterId) (k : Chapter) : (s.eraseChapter c k).PageLaw := by
  refine h.move (Tab.wf_drop _ h.1) rfl ?_
  refine .trans ?_ ((publishedPages_perm h.1 c).symm.append_left _)
  rw [← List.append_assoc]
  exact .refl _

/-- R16: the pages of the sets of the title's chapters join the pool. -/
theorem retire (h : s.PageLaw) (th : Nat) (t : Title) : (s.retire th t).PageLaw := by
  rw [State.retire_eq]
  refine h.move (Tab.wf_filter _ h.1) rfl ?_
  have hsets := publishedPages_filter s.rendMem.sets (fun e => decide (e.1 / 128 = th))
  simp only [← decide_not] at hsets
  refine .trans ?_ (hsets.symm.append_left _)
  rw [← List.append_assoc]
  exact .refl _

theorem change {p : Port} (hc : Change p s t) (h : s.PageLaw) : t.PageLaw := by
  cases hc with
  | retired th t => exact h.retire th t
  | deleted th index t k => exact (h.unqueue _ k .deleted).eraseChapter _ k
  | edited th index t k k' up dn =>
    exact State.PageLaw.editChapter (s := s.setTakeMem ((s.takeMem.raise up).lower dn)) h ⟨th, index⟩ k'
  | cancelled th index t k => exact h.unqueue ⟨th, index⟩ k .cancelled
  | lanes m => exact h.same ⟨rfl, rfl, fun i => by match i with | 0 | 1 | 2 | 3 => rfl⟩
  | closed slot => exact h.endHold slot
  | portReset => exact h.resetPort p
  | discarded take first last =>
    obtain ⟨m, q, he⟩ := s.commitDiscard_eq p take first last
    rw [he]
    exact h
  | _ => exact h

/-! ### Dispatch, and the slots of the wheel -/

/-- R82: a lane starts its render without pages. -/
theorem dispatchTo (h : s.PageLaw) (hr : (s.lanes.get i).render = none) (c : ChapterId) (origin : Priority) (q : RenderQueue) :
    (s.dispatchTo i c origin q).PageLaw := by
  unfold State.dispatchTo
  split
  · next t k _ _ =>
    exact h.same (.setLane (l := { s.lanes.get i with render := some (startRender c origin t k) }) rfl rfl rfl
      (Lane.pages_idle hr).symm)
  · exact h

theorem dispatchOne (h : s.PageLaw) : s.dispatchOne.PageLaw := by
  unfold State.dispatchOne
  split
  · exact h
  · next i hi =>
    have hr : (s.lanes.get i).render = none := by
      have hd := List.find?_some hi
      rw [State.dispatchable_eq, decide_eq_true_eq] at hd
      exact hd.1
    split
    · exact h.dispatchTo hr ..
    · exact h.dispatchTo hr ..
    · exact h

theorem failRead (h : s.PageLaw) (i : Fin 4) (r : Render) (g : Nat) : (s.failRead i r g).PageLaw :=
  State.PageLaw.failRender (s := { s with takeMem := s.takeMem.markFaulted g }) h ..

/-- R89, R90: the measure pass has no pages, and neither have the encoders at its end. -/
theorem measured (h : s.PageLaw) (hr : (s.lanes.get i).render = some r) {a : Assembly} {m : Meter} (hst : r.stage = .measure a m)
    (held : Option HeldBlock) (m' : Meter) : (s.measured i r held m').PageLaw := by
  have hnone : (s.lanes.get i).pages = [] := by
    rw [Lane.pages_render hr, Render.pages, hst]
    rfl
  unfold State.measured
  split
  · exact h.same (.setLane rfl rfl rfl ((startEncoders_pages 0 r.params.profiles).trans hnone.symm))
  · exact h.same (.setLane rfl rfl rfl hnone.symm)

/-- R140, R144: the pages that a frame needs leave the pool for the encoders. -/
theorem drawn (h : s.PageLaw) (hr : (s.lanes.get i).render = some r) {a : Assembly} {gain : GainRecord} {n : Nat}
    {es : List Encoder} (hst : r.stage = .encode a gain n es) (voiced : Bool)
    (hp : r'.pages = (drawPages voiced es s.rendMem.pool).1.flatMap (fun e => e.pages)) :
    (({ s with rendMem := { s.rendMem with pool := (drawPages voiced es s.rendMem.pool).2.1 } } : State).setRender i
      r').PageLaw := by
  refine h.moveLane (l := { s.lanes.get i with render := some r' }) h.1 rfl fun g => ?_
  have hdrawn := (drawPages_perm voiced es s.rendMem.pool).count_eq g
  rw [Lane.pages_render hr, Lane.pages_render (r := r') rfl, hp, Render.pages, hst]
  simp only [List.count_append] at hdrawn
  simp only [State.setRender_rendMem, Stage.encoders]
  omega

/-- R91, R152, R153: a render that asks for its commit keeps its pages, or gives them to its set. -/
theorem askCommit (h : (s.setRender i r').PageLaw) {es : List Encoder} (hp : es.flatMap (fun e => e.pages) = r'.pages)
    (gain : GainRecord) (n : Nat) : (s.askCommit i r gain n es).PageLaw := by
  have hlane : ∀ q : Render, q.pages = r'.pages → (s.setRender i q).PageLaw := fun q hq => h.same (.setRender hq)
  unfold State.askCommit
  split
  · exact hlane { r with pass := r.pass + 1, stage := .commitWait gain n es } hp
  · exact (hlane { r with
      pass := r.pass + 1, stage := .encode { cursor := r.timeline.length, held := none } gain n es } hp).commit i

/-- R138: restores and headers leave the pages of the encoders. -/
theorem endEncode (h : (s.setRender i r').PageLaw) {es : List Encoder} (hp : es.flatMap (fun e => e.pages) = r'.pages)
    (gain : GainRecord) (n : Nat) : (s.endEncode i r gain n es).PageLaw := by
  have hrestored : (es.map Encoder.restored).flatMap (fun e => e.pages) = r'.pages := (List.flatMap_map ..).trans hp
  unfold State.endEncode
  refine State.PageLaw.askCommit (r' := r') ?_ hrestored gain n
  exact h

/-- R140: a frame leaves the encoders with the pages drawn for it. -/
theorem takeFrame {pool : List Nat}
    (h : (({ s with rendMem := { s.rendMem with pool := pool } } : State).setRender i r').PageLaw) {es : List Encoder}
    (hp : es.flatMap (fun e => e.pages) = r'.pages) (held : Option HeldBlock) (gain : GainRecord) (n : Nat) (voiced : Bool)
    (ys : List Int) : (s.takeFrame i r held gain n es pool voiced ys).PageLaw := by
  have htaken : (es.map fun e => e.takeFrame voiced ys r.pass).flatMap (fun e => e.pages) = r'.pages :=
    (List.flatMap_map ..).trans hp
  unfold State.takeFrame
  dsimp only
  split
  · refine State.PageLaw.endEncode (r' := r') ?_ htaken gain n
    exact h
  · refine State.PageLaw.same ?_ (.setRender (r := r') htaken)
    exact h

theorem encoded (h : s.PageLaw) (hr : (s.lanes.get i).render = some r) {a : Assembly} {gain : GainRecord} {n : Nat}
    {es : List Encoder} (hst : r.stage = .encode a gain n es) (held : Option HeldBlock) (xs : List Int) :
    (s.encoded i r a held gain n es xs).PageLaw := by
  have hdrawn := fun q => h.drawn (r' := q) hr hst (isVoiced r.params.loudness.silence (gainBlock gain.q xs))
  unfold State.encoded
  dsimp only
  split
  · next heq =>
    rw [heq] at hdrawn
    exact State.PageLaw.takeFrame (hdrawn { r with stage := .encode a gain n _ } rfl) rfl ..
  · next heq =>
    rw [heq] at hdrawn
    exact (hdrawn _ rfl).failRender ..

theorem grantSlot (h : s.PageLaw) {f : Option Nat} (ht : s.grantSlot f = some t) : t.PageLaw := by
  unfold State.grantSlot at ht
  split at ht
  · cases ht; exact h
  split at ht
  · cases ht; exact h
  next r hr =>
  split at ht
  · unfold State.progress at ht
    split at ht
    · next hst =>
      split at ht
      · cases ht
      · cases ht; exact h.failRead ..
      · cases ht; exact h.measured hr hst ..
    · next hst =>
      split at ht
      · cases ht
      · cases ht; exact h.failRead ..
      · cases ht; exact h.encoded hr hst ..
    · cases ht; exact h
  · cases ht; exact h

/-! ### Every step -/

/-- R150: after a device reset every page is in the pool. -/
theorem restart (s : State) (cause : ResetCause) (ra rb rc : Role) : (s.restart cause ra rb rc).PageLaw := by
  refine ⟨rfl, ?_⟩
  change (List.range' 0 1048576 ++ [] ++ []).Perm _
  rw [List.append_nil, List.append_nil, ← List.range_eq_range']

theorem kept : Kept State.PageLaw where
  ports _ _ _ h := h
  pending _ _ h := h
  resetHeld _ _ h := h
  change _ _ _ hc h := h.change hc
  endFetch _ _ h := h
  endHold _ slot h := h.endHold slot
  eraseStart _ h := h
  eraseDone _ h := h
  eraseFailed _ h := h
  dispatch _ h := h.dispatchOne
  slot _ _ _ ht h := h.grantSlot ht
  advance _ h := h
  clock _ h := h
  expire _ h := h.expireHold
  abandon _ h := h
  restart s cause ra rb rc _ := restart s cause ra rb rc
  blockDone _ _ _ _ _ _ h := h
  blockFailed s take t block g _ _ h := by
    obtain ⟨m, q, he⟩ := s.blockFailed_eq take t block g
    rw [he]
    exact h

end State.PageLaw

end

end Sys2Proof.Machine

namespace Sys2Proof.Settled

open Sys2Proof.Machine

/-- Settles O54: each thing the part can do leaves the pages where they are, or moves the pages of a set or of a lane as a whole, or
those that a frame draws from the pool. -/
theorem stepsKeepPages : Obligations.StepsKeepPages := by
  unfold Obligations.StepsKeepPages
  intro s t h hstep
  exact State.PageLaw.kept.step hstep h

end Sys2Proof.Settled
end

section
/-! SUPPORT. What OPEN-READ and READ-RANGE answer, one equation for each outcome. -/

namespace Sys2Proof.Machine

/-! ### The free slots -/

namespace HoldTable

variable {t : HoldTable}

/-- R157: the slot that is looked for is the lowest-numbered free one. -/
theorem freeSlot_eq_some {slot : Nat} (hlo : 1 ≤ slot) (hhi : slot ≤ 16) (hfree : Tab.look t.holds slot = none)
    (hlow : ∀ j, 1 ≤ j → j < slot → Tab.look t.holds j ≠ none) : t.freeSlot = some slot := by
  refine List.find?_range'_eq_some.2 ⟨by simp [hfree], List.mem_range'_1.2 (by omega), fun j hj hlt => ?_⟩
  simpa [← Option.isSome_iff_ne_none] using hlow j hj hlt

end HoldTable

/-- R151: a set has no image at a rendition index that none of its images has. -/
theorem PublishedSet.image_none {set : PublishedSet} {ri : Nat} (h : ∀ im ∈ set.images, im.rendition ≠ ri) :
    set.image? ri = none :=
  List.find?_eq_none.2 fun im him => by simpa using h im him

/-! ### OPEN-READ -/

section
variable {p : Port} {th c ri : Nat} {s : State} {t : Title} {k : Chapter} (ht : s.title? th = some t) (hc : c ≤ 127)
  (hk : s.chapter? ⟨th, c⟩ = some k)
include ht hc hk

theorem openRead_noRendition (hri : 3 < ri) : openRead p th c ri s = refuse .range s :=
  (withTitle_some ht).trans ((withChapter_some hc hk).trans (if_pos hri))

theorem openRead_unpublished (hri : ri ≤ 3) (hp : k.published = false) : openRead p th c ri s = refuse .badState s :=
  (withTitle_some ht).trans ((withChapter_some hc hk).trans ((if_neg (Nat.not_lt.2 hri)).trans (if_pos hp)))

section
variable {set : PublishedSet} (hri : ri ≤ 3) (hp : k.published = true) (hs : Tab.look s.rendMem.sets (th * 128 + c) = some set)
include hri hp hs

theorem openRead_noImage (hno : set.image? ri = none) : openRead p th c ri s = refuse .range s := by
  refine (withTitle_some ht).trans ((withChapter_some hc hk).trans ((if_neg (Nat.not_lt.2 hri)).trans
    ((if_neg (by simp [hp])).trans ?_)))
  simp only [ChapterId.key, hs, hno]

/-- R156: a published image leaves the checks of the profile, of the commit, of the numbers of holds and of the slots. -/
theorem openRead_checks {im : Image} (him : set.image? ri = some im) : openRead p th c ri s =
    if t.profiles.length ≤ ri then refuse .range s
    else if k.state = .commitWait then refuse .busy s
    else if 16 ≤ s.holdTable.holds.length ∨ 8 ≤ (s.holdsOf p).length then refuse .full s
    else
      match s.holdTable.freeSlot with
      | none => refuse .full s
      | some slot => accept
          ([BitVec.ofNat 8 slot, BitVec.ofNat 8 (s.holdTable.nextGeneration slot)] ++
            (le 4 im.byteCount ++ (le 2 k.serial ++ [BitVec.ofNat 8 set.images.length])))
          { s with holdTable := s.holdTable.open_ slot (newHold p ⟨th, c⟩ ri k.serial s.holdTable.limit) }
          { stale := k.stale } := by
  refine (withTitle_some ht).trans ((withChapter_some hc hk).trans ((if_neg (Nat.not_lt.2 hri)).trans
    ((if_neg (by simp [hp])).trans ?_)))
  simp only [ChapterId.key, hs, him]
  rfl

theorem openRead_noProfile (hn : t.profiles.length ≤ ri) : openRead p th c ri s = refuse .range s := by
  cases him : set.image? ri with
  | none => exact openRead_noImage ht hc hk hri hp hs him
  | some im => exact (openRead_checks ht hc hk hri hp hs him).trans (if_pos hn)

variable {im : Image} (him : set.image? ri = some im) (hn : ri < t.profiles.length)
include him hn

theorem openRead_busy (hw : k.state = .commitWait) : openRead p th c ri s = refuse .busy s :=
  (openRead_checks ht hc hk hri hp hs him).trans ((if_neg (Nat.not_le.2 hn)).trans (if_pos hw))

variable (hw : k.state ≠ .commitWait)
include hw

theorem openRead_full (hf : 16 ≤ s.holdTable.holds.length ∨ 8 ≤ (s.holdsOf p).length) :
    openRead p th c ri s = refuse .full s :=
  (openRead_checks ht hc hk hri hp hs him).trans ((if_neg (Nat.not_le.2 hn)).trans ((if_neg hw).trans (if_pos hf)))

theorem openRead_taken (hf : ¬ (16 ≤ s.holdTable.holds.length ∨ 8 ≤ (s.holdsOf p).length)) {slot : Nat}
    (hslot : s.holdTable.freeSlot = some slot) : openRead p th c ri s = accept
      ([BitVec.ofNat 8 slot, BitVec.ofNat 8 (s.holdTable.nextGeneration slot)] ++
        (le 4 im.byteCount ++ (le 2 k.serial ++ [BitVec.ofNat 8 set.images.length])))
      { s with holdTable := s.holdTable.open_ slot (newHold p ⟨th, c⟩ ri k.serial s.holdTable.limit) }
      { stale := k.stale } := by
  refine (openRead_checks ht hc hk hri hp hs him).trans ((if_neg (Nat.not_le.2 hn)).trans ((if_neg hw).trans
    ((if_neg hf).trans ?_)))
  rw [hslot]

end

end

/-! ### A handle that resolves, and READ-RANGE -/

/-- R154: the image that a hold names. -/
theorem State.heldImage_eq {s : State} {h : Hold} {set : PublishedSet} {im : Image}
    (hset : Tab.look s.rendMem.sets h.chapter.key = some set) (him : set.image? h.rendition = some im) :
    s.heldImage h = some im := by
  rw [State.heldImage, hset]
  exact him

theorem State.heldSize_eq {s : State} {h : Hold} {im : Image} (him : s.heldImage h = some im) :
    s.heldSize h = im.byteCount := by
  rw [State.heldSize, him]

theorem State.isStale_eq {s : State} {c : ChapterId} {k : Chapter} (hk : s.chapter? c = some k) : s.isStale c = k.stale := by
  rw [State.isStale, hk]

section
variable {p : Port} {th slot gen : Nat} {s : State} {t : Title} {h : Hold} (h1 : 1 ≤ slot) (h16 : slot ≤ 16)
  (hh : Tab.look s.holdTable.holds slot = some h) (hg : s.holdTable.gens.getD (slot - 1) 0 = gen) (ho : h.owner = p)
  (hth : h.chapter.title = th)
include h1 h16 hh hg ho hth

/-- R158: a handle of the port and the title that names a hold. -/
theorem withHold_some {f : Hold → Answer × State} : withHold p th slot gen s f = f h := by
  refine (if_neg (by omega)).trans ?_
  rw [hh]
  exact (if_neg (not_not.2 hg)).trans (if_neg (by simp [ho, hth]))

section
variable {off len size : Nat} (ht : s.title? th = some t) (hsize : s.heldSize h = size)
include ht hsize

theorem readRange_range (hr : len = 0 ∨ 4096 < len ∨ size ≤ off) : readRange p th slot gen off len s = refuse .range s := by
  refine (withTitle_some ht).trans ((withHold_some h1 h16 hh hg ho hth).trans ?_)
  rw [hsize]
  by_cases hlen : len = 0 ∨ 4096 < len
  · rw [if_pos hlen]
  · rw [if_neg hlen, if_pos (by omega)]

theorem readRange_taken (hlo : 1 ≤ len) (hhi : len ≤ 4096) (hoff : off < size) : readRange p th slot gen off len s =
    (.started (.fetch slot (s.isStale h.chapter)), s.setHold slot (h.reading s.holdTable.limit off len size)) := by
  refine (withTitle_some ht).trans ((withHold_some h1 h16 hh hg ho hth).trans ?_)
  rw [hsize, if_neg (by omega), if_neg (by omega)]

end

end

end Sys2Proof.Machine

namespace Sys2Proof.Settled

open Sys2Proof.Machine

/-- Settles O26: the checks of R156 one after the other, then the lowest free slot; the hold's image and the range decide
READ-RANGE. -/
theorem openReadAndReadRange : Obligations.OpenReadAndReadRange := by
  unfold Obligations.OpenReadAndReadRange
  refine ⟨fun p tag th c ri s t k hl ha ht hc hk => ?_, fun p tag th slot gen off len s t h set im k hl ha ht h1 h16 hh hg ho hth
    hset him hk => ?_⟩
  · intro no
    have hno : ∀ st, openRead p th c ri (s.heard p 2) = refuse st (s.heard p 2) → no st :=
      fun st hr => exec_reads (r := .openRead th c ri) rfl hl ha rfl rfl hr
    refine ⟨fun hri => hno _ (openRead_noRendition ht hc hk hri), fun hri hp => hno _ (openRead_unpublished ht hc hk hri hp),
      fun set hri hp hs => ⟨?_, fun im hn him => ⟨fun hw => hno _ (openRead_busy ht hc hk hri hp hs him hn hw),
        fun hw => ⟨fun hf => hno _ (openRead_full ht hc hk hri hp hs him hn hw hf), fun slot h16 h8 hlo hhi hfree hlow => ?_⟩⟩⟩⟩
    · rintro (hn | hnone)
      · exact hno _ (openRead_noProfile ht hc hk hri hp hs hn)
      · exact hno _ (openRead_noImage ht hc hk hri hp hs (PublishedSet.image_none hnone))
    · exact exec_answered (r := .openRead th c ri) _ rfl hl ha rfl rfl rfl
        (openRead_taken (s := s.heard p 2) ht hc hk hri hp hs him hn hw
          (not_or.2 ⟨Nat.not_le.2 h16, Nat.not_le.2 h8⟩) (HoldTable.freeSlot_eq_some hlo hhi hfree hlow))
  · have hsize : s.heldSize h = im.byteCount := State.heldSize_eq (State.heldImage_eq hset him)
    refine ⟨fun hr => ?_, fun hlo hhi hoff => ?_⟩
    · exact exec_reads (r := .readRange th slot gen off len) rfl hl ha rfl rfl
        (readRange_range (s := s.heard p 8) h1 h16 hh hg ho hth ht hsize hr)
    · have htaken := readRange_taken (s := s.heard p 8) h1 h16 hh hg ho hth ht hsize hlo hhi hoff
      rw [State.isStale_eq (s := s.heard p 8) hk] at htaken
      exact exec_executes (r := .readRange th slot gen off len)
        (s.setHold slot (h.reading s.holdTable.limit off len im.byteCount)) rfl hl ha rfl rfl rfl htaken

end Sys2Proof.Settled
end

section
/-! SUPPORT. R160, R168: how the end of a hold meets the ports, and the end of a fetch. -/

namespace Sys2Proof.Machine

/-! ### The end of a hold and the ports -/

/-- R152: a commit does to the ports no more than join its DONE entries, whatever else they hold. -/
theorem State.commit_ports (s : State) (i : Fin 4) :
    ∃ f, ∀ q : Ports, State.commit { s with ports := q } i = { s.commit i with ports := q.notify f } := by
  cases hr : (s.lanes.get i).render with
  | none => exact ⟨id, fun q => by simp only [State.commit, hr]; rfl⟩
  | some r => exact ⟨fun l => l.postDone r.chapter (s.commitSerial r.chapter), fun q => by simp only [State.commit, hr]; rfl⟩

theorem State.releaseCommit_ports (s : State) (c : ChapterId) :
    ∃ f, ∀ q : Ports, State.releaseCommit { s with ports := q } c = { s.releaseCommit c with ports := q.notify f } := by
  have hheld : ∀ q : Ports, State.held { s with ports := q } c = s.held c := fun _ => rfl
  have hchapter : ∀ q : Ports, State.chapter? { s with ports := q } c = s.chapter? c := fun _ => rfl
  have hlane : ∀ q : Ports, State.laneOf { s with ports := q } c = s.laneOf c := fun _ => rfl
  unfold State.releaseCommit
  simp only [hheld, hchapter, hlane]
  split
  · exact ⟨id, fun _ => rfl⟩
  split
  · split
    · exact s.commit_ports _
    · exact ⟨id, fun _ => rfl⟩
  · exact ⟨id, fun _ => rfl⟩

/-- R162: neither does the end of a hold, with the commit that it may take. -/
theorem State.endHold_ports (s : State) (slot : Nat) :
    ∃ f, ∀ q : Ports, State.endHold { s with ports := q } slot = { s.endHold slot with ports := q.notify f } := by
  unfold State.endHold
  dsimp only
  split
  · exact ⟨id, fun _ => rfl⟩
  · exact (s.withoutHold slot).releaseCommit_ports _

theorem State.endHold_discardMark (s : State) (slot : Nat) (p : Port) :
    ((s.endHold slot).port p).discardMark = (s.port p).discardMark := by
  obtain ⟨f, hf⟩ := s.endHold_ports slot
  have hports : (s.endHold slot).ports = s.ports.notify f := congrArg State.ports (hf s.ports)
  rw [State.port, hports, Ports.get_notify]
  rfl

/-! ### The end of a fetch -/

/-- R191: no event happens while a device reset is held. -/
theorem event_held {f : State → State} {s : State} (h : s.resetHeld ≠ none) : event f s = .next s.driveAttn := by
  rw [event, if_pos (Option.isSome_iff_ne_none.2 h)]
  rfl

section
variable {s : State} {p : Port}

/-- R160: without a fetch in flight there is none to end. -/
theorem State.fetchDone_noFetch (h : ∀ o, (s.port p).operation = some o → ∃ take block data, o.work = .program take block data) :
    s.fetchDone p = s := by
  unfold State.fetchDone
  split
  · rfl
  · next o ho =>
    obtain ⟨take, block, data, hw⟩ := h o ho
    rw [hw]

variable {tag : Byte} {dr st : Bool} {slot : Nat} (ho : (s.port p).operation = some ⟨tag, dr, .fetch slot st⟩)
include ho

theorem State.fetchDone_kept (hd : (s.port p).discardMark = false) :
    s.fetchDone p = (s.endFetch slot).completeOp p ⟨tag, dr, .fetch slot st⟩ (s.fetchReply slot st) := by
  unfold State.fetchDone
  rw [ho]
  exact if_neg (by simp [hd])

theorem State.fetchDone_dropped (hd : (s.port p).discardMark = true) :
    s.fetchDone p = ((s.endFetch slot).endHold slot).completeOp p ⟨tag, dr, .fetch slot st⟩ (s.fetchReply slot st) := by
  unfold State.fetchDone
  rw [ho]
  exact if_pos hd

end

section
variable {s : State} {slot : Nat} {h : Hold} (hh : Tab.look s.holdTable.holds slot = some h)
include hh

theorem State.endFetch_eq : s.endFetch slot = s.setHold slot { h with read := none } := by
  rw [State.endFetch, Tab.change, hh]
  rfl

/-- R168: a hold that ends needs its read no more. -/
theorem State.endHold_endFetch : (s.endFetch slot).endHold slot = s.endHold slot := by
  have hread : Tab.look (Tab.put s.holdTable.holds slot { h with read := none }) slot = some { h with read := none } :=
    Tab.look_put_same ..
  rw [State.endFetch_eq hh]
  simp only [State.endHold, State.setHold, hread, hh, drop_put]

/-- R160: the reply gives the length, the serial and the bytes of the image by its page list. -/
theorem State.fetchReply_eq {off len : Nat} {im : Image} (hr : h.read = some (off, len)) (him : s.heldImage h = some im)
    (st : Bool) : s.fetchReply slot st =
      { status := .ok, flags := { stale := st }, results := le 2 len ++ (le 2 h.serial ++
        (List.range len).map (fun j => readImage s.rendMem.mem im.pages (off + j))) } := by
  have hbytes : s.fetched h = (List.range len).map (fun j => readImage s.rendMem.mem im.pages (off + j)) := by
    rw [State.fetched, him, hr]
  rw [State.fetchReply, hh]
  dsimp only
  rw [hbytes, List.length_map, List.length_range]

end

end Sys2Proof.Machine

namespace Sys2Proof.Settled

open Sys2Proof.Machine

/-- Settles O27: the operation of the port decides whether a fetch ends, and the discard mark whether its reply or its hold is
dropped. -/
theorem fetchCompletion : Obligations.FetchCompletion := by
  unfold Obligations.FetchCompletion
  refine ⟨fun p s hnone => ?_, fun p tag dr st slot off len s h set im hreset ho hh hread hset him => ⟨fun hd => ?_,
    fun hd hm => ⟨s.endHold slot, endHold_spec hh hm, ?_⟩⟩⟩
  · have hrun : exec (.fetchCompletion p) s = event (fun s => s.fetchDone p) s := rfl
    by_cases hreset : s.resetHeld = none
    · refine hrun.trans ((event_next hreset).trans ?_)
      rw [State.fetchDone_noFetch]
      intro o ho
      rcases hnone with hheld | hidle | ⟨tag, dr, take, block, data, hprogram⟩
      · exact absurd hreset hheld
      · cases hidle.symm.trans ho
      · cases hprogram.symm.trans ho
        exact ⟨take, block, data, rfl⟩
    · exact hrun.trans (event_held hreset)
  · refine (event_next (f := fun s => s.fetchDone p) hreset).trans ?_
    rw [State.fetchDone_kept ho hd, State.fetchReply_eq hh hread (State.heldImage_eq hset him), State.endFetch_eq hh,
      State.completeOp_eq (s := s.setHold slot { h with read := none }) hd]
    rfl
  · refine (event_next (f := fun s => s.fetchDone p) hreset).trans ?_
    rw [State.fetchDone_dropped ho hd, State.endHold_endFetch hh,
      State.completeOp_eq ((s.endHold_discardMark slot p).trans hd)]
    rfl

end Sys2Proof.Settled
end

section
/-! SUPPORT. R161 to R163: CLOSE-READ, the step of the hold clock, and the expiry of the hold that is due. -/

namespace Sys2Proof.Machine

theorem closeRead_taken {p : Port} {th slot gen : Nat} {s : State} {t : Title} {h : Hold} (ht : s.title? th = some t)
    (h1 : 1 ≤ slot) (h16 : slot ≤ 16) (hh : Tab.look s.holdTable.holds slot = some h)
    (hg : s.holdTable.gens.getD (slot - 1) 0 = gen) (ho : h.owner = p) (hth : h.chapter.title = th) :
    closeRead p th slot gen s = accept [] (s.endHold slot) :=
  (withTitle_some ht).trans (withHold_some h1 h16 hh hg ho hth)

/-- A request whose owner ends a hold and replies `res`. -/
theorem request_endsHold {s : State} {p : Port} (r : Request) (tag : Byte) (slot : Nat) (res : Result) (hl : s.listens p)
    (ha : s.allows p (requestClass r)) (hf : formatOk r = true) (hd : isDiscard r = false)
    (hh : handle p r (s.heard p (operandLength r)) = (.reply res, (s.heard p (operandLength r)).endHold slot)) :
    request p tag r s = .next ((s.endHold slot).answered p tag (operandLength r) (s.marked p) res) := by
  obtain ⟨f, hports⟩ := s.endHold_ports slot
  exact request_answered_notify r tag (s.endHold slot) f res hl ha hf hd (congrArg State.ports (hports s.ports))
    (hh.trans (congrArg (Prod.mk _) (hports (s.heard p (operandLength r)).ports)))

/-! ### The hold clock and expiry -/

theorem HoldTable.clockStep_eq (t : HoldTable) : t.clockStep = { t with holds := t.holds.map (fun e =>
    if e.2.read = none then (e.1, { e.2 with remaining := e.2.remaining - 1 }) else e) } := by
  simp only [HoldTable.clockStep, Option.isNone_iff_eq_none]

/-- The record that passes a test, where none of a lower number does, is the first that passes. -/
theorem Tab.find_eq_some {α : Type} {t : Tab α} {f : Nat × α → Bool} {k : Nat} {v : α} (hw : Tab.wf t = true)
    (hk : Tab.look t k = some v) (hf : f (k, v) = true) (hlow : ∀ j w, j < k → Tab.look t j = some w → f (j, w) = false) :
    t.find? f = some (k, v) := by
  cases he : t.find? f with
  | none => exact absurd hf (List.find?_eq_none.1 he _ (Tab.mem_of_look hk))
  | some e =>
    have hlook : Tab.look t e.1 = some e.2 := Tab.look_of_mem hw (List.mem_of_find?_eq_some he)
    have hpass : f (e.1, e.2) = true := List.find?_some he
    have hle : e.1 ≤ k := Tab.find_lowest hw he _ (Tab.mem_of_look hk) hf
    rcases hle.lt_or_eq with hlt | heq
    · exact absurd hpass (by simp [hlow _ _ hlt hlook])
    · rw [heq, hk] at hlook
      cases hlook
      rw [← heq]

theorem HoldTable.due_eq_none {t : HoldTable} (h : ∀ e ∈ t.holds, e.2.remaining ≠ 0 ∨ e.2.read ≠ none) : t.due = none :=
  List.find?_eq_none.2 fun e he => by simpa [Option.isSome_iff_ne_none, or_iff_not_imp_left] using h e he

theorem HoldTable.due_eq_some {t : HoldTable} {slot : Nat} {h : Hold} (hw : Tab.wf t.holds = true)
    (hh : Tab.look t.holds slot = some h) (h0 : h.remaining = 0) (hr : h.read = none)
    (hlow : ∀ j x, j < slot → Tab.look t.holds j = some x → x.remaining ≠ 0 ∨ x.read ≠ none) : t.due = some (slot, h) := by
  refine Tab.find_eq_some hw hh (by simp [h0, hr]) fun j x hj hx => ?_
  rcases hlow j x hj hx with hne | hne
  · simp [hne]
  · simp [Option.isNone_eq_false_iff.2 (Option.isSome_iff_ne_none.2 hne)]

theorem State.expireHold_none {s : State} (h : s.holdTable.due = none) : s.expireHold = s := by
  rw [State.expireHold, h]

theorem State.expireHold_due {s : State} {slot : Nat} {h : Hold} (hdue : s.holdTable.due = some (slot, h)) :
    s.expireHold = (s.changePort h.owner (fun r => { r with
      lists := r.lists.postExpired slot (s.holdTable.generation slot) h.chapter h.rendition })).endHold slot := by
  rw [State.expireHold, hdue]

end Sys2Proof.Machine

namespace Sys2Proof.Settled

open Sys2Proof.Machine

/-- Settles O28: each of the three ends a hold as `endHold_spec` says, or counts; the hold that is due is the first in the table that
stands at 0 with no read in flight. -/
theorem holdsEnd : Obligations.HoldsEnd := by
  unfold Obligations.HoldsEnd
  refine ⟨fun p tag th slot s t h hl ha ht h1 h16 hh ho hth hm => ⟨s.endHold slot, endHold_spec hh hm, ?_⟩,
    fun s hreset => ⟨?_, fun hnone => ?_, fun slot h hw hm hh h0 hr hlow => ⟨_, endHold_spec hh hm, ?_⟩⟩⟩
  · exact request_endsHold (.closeRead th slot (s.holdTable.gens.getD (slot - 1) 0)) tag slot _ hl ha rfl rfl
      (closeRead_taken (s := s.heard p 2) ht h1 h16 hh rfl ho hth)
  · refine (event_next (f := fun s => { s with holdTable := s.holdTable.clockStep }) hreset).trans ?_
    rw [HoldTable.clockStep_eq]
  · refine (event_next (f := State.expireHold) hreset).trans ?_
    rw [State.expireHold_none (HoldTable.due_eq_none hnone)]
  · refine (event_next (f := State.expireHold) hreset).trans ?_
    rw [State.expireHold_due (HoldTable.due_eq_some hw hh h0 hr hlow)]
    rfl

end Sys2Proof.Settled
end

section
/-! SUPPORT. R169, R171, R173: how an entry joins a notice list, and that the events leave each key in the lists once. -/

namespace Sys2Proof.Machine

/-! ### One entry joins -/

section
variable {α β γ : Type} {same : α → Bool} {e x : α} {l a b : List α} {key : α → β} {m : List β}

/-- R169: an entry with a new key joins at the tail. -/
theorem upsert_absent (h : ∀ y ∈ l, same y = false) : upsert same e l = l ++ [e] := by
  induction l with
  | nil => rfl
  | cons y l ih =>
    obtain ⟨hy, hl⟩ := List.forall_mem_cons.1 h
    rw [upsert, hy, if_neg Bool.false_ne_true, ih hl]
    rfl

/-- R169: an entry whose key is present is updated where it stands. -/
theorem upsert_present (ha : ∀ y ∈ a, same y = false) (hx : same x = true) : upsert same e (a ++ x :: b) = a ++ e :: b := by
  induction a with
  | nil => exact if_pos hx
  | cons y a ih =>
    obtain ⟨hy, ha⟩ := List.forall_mem_cons.1 ha
    rw [List.cons_append, upsert, hy, if_neg Bool.false_ne_true, ih ha]
    rfl

/-- A key is in a list or it is not; if it is, it has a first place there. -/
theorem first_place (same : α → Bool) (l : List α) : (∀ y ∈ l, same y = false) ∨
    ∃ a x b, l = a ++ x :: b ∧ (∀ y ∈ a, same y = false) ∧ same x = true := by
  by_cases h : ∃ y ∈ l, same y = true
  · obtain ⟨x, a, b, ha, hx, hl, -⟩ := List.exists_of_eraseP h.choose_spec.1 h.choose_spec.2
    exact .inr ⟨a, x, b, hl, fun y hy => by simpa using ha y hy, hx⟩
  · exact .inl fun y hy => by simpa using fun hs => h ⟨y, hy, hs⟩

/-- R169: an entry that joins leaves each key there once, `m` being the keys of another list that must not hold it either. -/
theorem upsert_nodup (hs : ∀ y, same y = true ↔ key y = key e) (hm : key e ∉ m) (h : (l.map key ++ m).Nodup) :
    ((upsert same e l).map key ++ m).Nodup := by
  rcases first_place same l with hl | ⟨a, x, b, rfl, ha, hx⟩
  · have hnew : key e ∉ l.map key := fun hk => by
      obtain ⟨y, hy, hk⟩ := List.mem_map.1 hk
      exact absurd ((hs y).2 hk) (by simp [hl y hy])
    rw [upsert_absent hl, List.map_append, List.append_assoc, List.map_singleton, List.singleton_append,
      List.nodup_middle, List.nodup_cons, List.mem_append]
    exact ⟨fun hk => hk.elim hnew hm, h⟩
  · rw [upsert_present ha hx, List.map_append, List.map_cons, ← (hs x).1 hx]
    rwa [List.map_append, List.map_cons] at h

theorem upsert_nodup_keys (hs : ∀ y, same y = true ↔ key y = key e) (h : (l.map key).Nodup) :
    ((upsert same e l).map key).Nodup := by
  rw [← List.append_nil (l.map key)] at h
  exact (List.nodup_append'.1 (upsert_nodup hs List.not_mem_nil h)).1

/-- R171: an entry joins one list, and its key leaves another: the key is in one of the two, and there once. -/
theorem upsert_filter_nodup {same' : γ → Bool} {key' : γ → β} {r : List γ} (hs : ∀ y, same y = true ↔ key y = key e)
    (hs' : ∀ y, same' y = true ↔ key' y = key e) (h : (l.map key ++ r.map key').Nodup) :
    ((upsert same e l).map key ++ (r.filter (fun y => !same' y)).map key').Nodup := by
  refine upsert_nodup hs (fun hk => ?_) (h.sublist ((List.filter_sublist.map _).append_left _))
  obtain ⟨y, hy, hk⟩ := List.mem_map.1 hk
  simp [(hs' y).2 hk] at hy

end

/-! ### The lists of a port -/

namespace NoticeLists.KeyLaw

variable {l l' : NoticeLists}

theorem empty : NoticeLists.empty.KeyLaw := ⟨.nil, .nil, .nil, .nil⟩

/-- R174, R175: entries leave. -/
theorem sublist (h : l.KeyLaw) (hd : l'.done.Sublist l.done) (hf : l'.failed.Sublist l.failed)
    (hs : l'.starved.Sublist l.starved) (hr : l'.restored.Sublist l.restored) (he : l'.expired.Sublist l.expired) :
    l'.KeyLaw := by
  obtain ⟨h1, h2, h3, h4⟩ := h
  exact ⟨h1.sublist (hd.map _), h2.sublist (hf.map _), h3.sublist ((hs.map _).append (hr.map _)), h4.sublist (he.map _)⟩

theorem removeNaming (h : l.KeyLaw) (gone : ChapterId → Bool) : (l.removeNaming gone).KeyLaw :=
  h.sublist List.filter_sublist List.filter_sublist List.filter_sublist List.filter_sublist List.filter_sublist

theorem pop (h : l.KeyLaw) (code : Nat) : (l.pop code).KeyLaw := by
  unfold NoticeLists.pop
  split
  · exact h.sublist (List.tail_sublist _) (.refl _) (.refl _) (.refl _) (.refl _)
  · exact h.sublist (.refl _) (List.tail_sublist _) (.refl _) (.refl _) (.refl _)
  · exact h.sublist (.refl _) (.refl _) (List.tail_sublist _) (.refl _) (.refl _)
  · exact h.sublist (.refl _) (.refl _) (.refl _) (List.tail_sublist _) (.refl _)
  · exact h.sublist (.refl _) (.refl _) (.refl _) (.refl _) (List.tail_sublist _)
  · exact h

theorem postDone (h : l.KeyLaw) (c : ChapterId) (n : Nat) : (l.postDone c n).KeyLaw := by
  obtain ⟨hd, hrest⟩ := h
  exact ⟨upsert_nodup_keys (fun _ => decide_eq_true_iff) hd, hrest⟩

theorem postFailed (h : l.KeyLaw) (c : ChapterId) (cause : FailCause) : (l.postFailed c cause).KeyLaw := by
  obtain ⟨hd, hf, hrest⟩ := h
  exact ⟨hd, upsert_nodup_keys (fun _ => decide_eq_true_iff) hf, hrest⟩

theorem postExpired (h : l.KeyLaw) (slot gen : Nat) (c : ChapterId) (ri : Nat) : (l.postExpired slot gen c ri).KeyLaw := by
  obtain ⟨hd, hf, hk, he⟩ := h
  exact ⟨hd, hf, hk, upsert_nodup_keys (fun _ => decide_eq_true_iff) he⟩

theorem postStarve (h : l.KeyLaw) (c : ChapterId) (ri n : Nat) : (l.postStarve c ri n).KeyLaw := by
  obtain ⟨hd, hf, hk, he⟩ := h
  exact ⟨hd, hf, upsert_filter_nodup (fun _ => by simp) (fun _ => by simp) hk, he⟩

theorem postRestore (h : l.KeyLaw) (c : ChapterId) (ri n : Nat) (ended : Bool) : (l.postRestore c ri n ended).KeyLaw := by
  obtain ⟨hd, hf, hk, he⟩ := h
  exact ⟨hd, hf, List.nodup_append_comm.1
    (upsert_filter_nodup (fun _ => by simp) (fun _ => by simp) (List.nodup_append_comm.1 hk)), he⟩

theorem postCrossings (h : l.KeyLaw) (c : ChapterId) (xs : List Crossing) : (l.postCrossings c xs).KeyLaw := by
  refine foldl_keeps (P := NoticeLists.KeyLaw) (fun l x h => ?_) xs h
  cases x with
  | starve ri n => exact h.postStarve c ri n
  | restore ri n ended => exact h.postRestore c ri n ended

end NoticeLists.KeyLaw

end Sys2Proof.Machine

namespace Sys2Proof.Settled

open Sys2Proof.Machine

/-- Settles O30: each list is moved by `upsert`, which finds the key at its first place or nowhere. -/
theorem noticesMove : Obligations.NoticesMove := by
  unfold Obligations.NoticesMove
  intro l c n ri f slot gen cause ended
  refine ⟨fun h => ?_, fun a b m hl ha => ?_, fun h => ?_, fun a b m hl ha => ?_, fun h => ?_, fun a b x hl ha => ?_,
    fun h => ?_, fun a b x y hl ha => ?_, fun h => ?_, fun a b x y z hl ha => ?_, ⟨rfl, fun xs => ⟨rfl, rfl⟩⟩,
    fun _ => rfl, fun q event p => Ports.get_notify q event p⟩
  · rw [NoticeLists.postDone, upsert_absent fun e he => decide_eq_false (h e he)]
  · rw [NoticeLists.postDone, hl, upsert_present (fun e he => decide_eq_false (ha e he)) (decide_eq_true rfl)]
  · rw [NoticeLists.postFailed, upsert_absent fun e he => decide_eq_false (h e he)]
  · rw [NoticeLists.postFailed, hl, upsert_present (fun e he => decide_eq_false (ha e he)) (decide_eq_true rfl)]
  · rw [NoticeLists.postStarve, upsert_absent fun e he => decide_eq_false (h e he)]
    simp only [decide_not]
  · rw [NoticeLists.postStarve, hl, upsert_present (fun e he => decide_eq_false (ha e he)) (decide_eq_true ⟨rfl, rfl⟩)]
    simp only [decide_not]
  · rw [NoticeLists.postRestore, upsert_absent fun e he => decide_eq_false (h e he)]
    simp only [decide_not]
  · rw [NoticeLists.postRestore, hl, upsert_present (fun e he => decide_eq_false (ha e he)) (decide_eq_true ⟨rfl, rfl⟩)]
    simp only [decide_not]
  · rw [NoticeLists.postExpired, upsert_absent fun e he => decide_eq_false (h e he)]
  · rw [NoticeLists.postExpired, hl, upsert_present (fun e he => decide_eq_false (ha e he)) (decide_eq_true rfl)]

end Sys2Proof.Settled
end

section
/-! SUPPORT. R175, R176: what POP-NOTICE and SET-NOTICE-MASK answer, and the command of a request that changes its own port. -/

namespace Sys2Proof.Machine

section
variable {s : State} {p : Port} {tag : Byte}

/-- A request whose owner replies `res` and makes one change of its own port, which neither looks at the discard sequence or the
transaction nor changes them. -/
theorem exec_changesPort {i : Instr} {r : Request} {res : Result} {f : PortRecord → PortRecord}
    (hf : ∀ q d sp b, f { q with sequence := d, span := sp, sent := b } = { f q with sequence := d, span := sp, sent := b })
    (hi : i.request? = some (p, tag, r)) (h : s.listens p) (ha : s.allows p (requestClass r)) (hform : formatOk r = true)
    (hd : isDiscard r = false)
    (hh : handle p r (s.heard p (operandLength r)) = (.reply res, (s.heard p (operandLength r)).changePort p f)) :
    exec i s = .next ((s.changePort p f).answered p tag (operandLength r) (s.marked p) res) := by
  rw [exec_request hi, request_reply tag h ha hform hd hh]
  simp only [State.heard, State.setSequence, State.answer, State.answered, State.replied, State.changePort_changePort]
  refine congrArg (fun g => Host.Outcome.next (s.changePort p g).driveAttn) (funext fun q => ?_)
  rw [hf]

/-- A change of a port is what it makes of that port's record. -/
theorem State.changePort_congr {f g : PortRecord → PortRecord} (h : f (s.port p) = g (s.port p)) :
    s.changePort p f = s.changePort p g := by rw [State.changePort, h, State.changePort]

theorem State.heard_lists (s : State) (p : Port) (k : Nat) : ((s.heard p k).port p).lists = (s.port p).lists := by
  rw [State.heard, State.port_changePort_same]

/-! ### POP-NOTICE -/

theorem FailedEntry.bytes_eq (e : FailedEntry) : e.bytes = [BitVec.ofNat 8 e.chapter.title, BitVec.ofNat 8 e.chapter.index,
    match e.cause with | .takeFault => 0#8 | .noSpace => 1#8] := by
  obtain ⟨c, cause⟩ := e
  cases cause <;> rfl

theorem RestoredEntry.bytes_eq (e : RestoredEntry) : e.bytes = [BitVec.ofNat 8 e.chapter.title,
    BitVec.ofNat 8 e.chapter.index, BitVec.ofNat 8 e.rendition] ++ (le 4 e.frame ++ [if e.ended then 1#8 else 0#8]) := by
  obtain ⟨c, ri, f, ended⟩ := e
  cases ended <;> rfl

variable {code : Nat} {ls : NoticeLists}

theorem popNotice_range (h : 4 < code) : popNotice p code s = refuse .range s := if_pos h

/-- R175: the list is empty, so the reply has the five numbers alone. -/
theorem popNotice_empty (hc : code ≤ 4) (hl : (s.port p).lists = ls) (h : ls.head? code = none) :
    popNotice p code s = accept ls.counts s { empty := true } := by
  rw [popNotice, if_neg (by omega), hl, h]

/-- R175: the head entry goes into the reply and out of its list. -/
theorem popNotice_head (hc : code ≤ 4) (hl : (s.port p).lists = ls) {entry : List Byte} (h : ls.head? code = some entry) :
    popNotice p code s = accept (le 1 code ++ (entry ++ (ls.pop code).counts))
      (s.changePort p (fun r => { r with lists := r.lists.pop code })) := by
  rw [popNotice, if_neg (by omega), hl, h]

theorem exec_popNotice_range (hl : s.listens p) (ha : s.allows p .query) (h : 4 < code) :
    exec (.popNotice p tag code) s = .next (s.answered p tag 1 (s.marked p) { status := .range }) :=
  exec_reads (r := .popNotice code) rfl hl ha rfl rfl (popNotice_range h)

theorem exec_popNotice_empty (hl : s.listens p) (ha : s.allows p .query) (hc : code ≤ 4)
    (h : (s.port p).lists.head? code = none) : exec (.popNotice p tag code) s =
      .next (s.answered p tag 1 (s.marked p)
        { status := .ok, flags := { empty := true }, results := (s.port p).lists.counts }) :=
  exec_reads (r := .popNotice code) rfl hl ha rfl rfl (popNotice_empty hc (State.heard_lists ..) h)

/-- R175: `l` are the lists that the pop leaves. -/
theorem exec_popNotice_head (hl : s.listens p) (ha : s.allows p .query) (hc : code ≤ 4) {entry : List Byte} {l : NoticeLists}
    (h : (s.port p).lists.head? code = some entry) (hpop : (s.port p).lists.pop code = l) : exec (.popNotice p tag code) s =
      .next ((s.changePort p (fun q => { q with lists := l })).answered p tag 1 (s.marked p)
        { status := .ok, results := BitVec.ofNat 8 code :: (entry ++ l.counts) }) := by
  have hrun := exec_changesPort (i := .popNotice p tag code) (s := s) (f := fun r => { r with lists := r.lists.pop code })
    (fun _ _ _ _ => rfl) rfl hl ha rfl rfl (popNotice_head hc (State.heard_lists ..) h)
  rw [hpop, State.changePort_congr (g := fun q => { q with lists := l }) (by simp only [hpop])] at hrun
  exact hrun

/-- R175: the list that the code names is `xs`, and `left` are the lists with another in its place. -/
theorem exec_popNotice_list (hl : s.listens p) (ha : s.allows p .query) (hc : code ≤ 4) {ε : Type} {xs : List ε}
    {bytes : ε → List Byte} {left : List ε → NoticeLists} (hhead : (s.port p).lists.head? code = xs.head?.map bytes)
    (hpop : (s.port p).lists.pop code = left xs.tail) :
    (xs = [] → exec (.popNotice p tag code) s = .next (s.answered p tag 1 (s.marked p)
      { status := .ok, flags := { empty := true }, results := (s.port p).lists.counts })) ∧
    ∀ e rest, xs = e :: rest → exec (.popNotice p tag code) s =
      .next ((s.changePort p (fun q => { q with lists := left rest })).answered p tag 1 (s.marked p)
        { status := .ok, results := BitVec.ofNat 8 code :: (bytes e ++ (left rest).counts) }) := by
  refine ⟨fun he => ?_, fun e rest he => ?_⟩
  · subst he
    exact exec_popNotice_empty hl ha hc hhead
  · subst he
    exact exec_popNotice_head hl ha hc hhead hpop

/-! ### SET-NOTICE-MASK -/

variable {m : Byte}

/-- R176: the byte of a mask is the byte that it was set from. -/
theorem byte_maskOf (h : m.toNat < 32) : BitVec.ofNat 8 (maskOf m).byte = m := by
  have hall : ∀ k < 32, BitVec.ofNat 8 (maskOf (BitVec.ofNat 8 k)).byte = BitVec.ofNat 8 k := by decide
  have hm := hall m.toNat h
  rwa [BitVec.ofNat_toNat, BitVec.setWidth_eq] at hm

theorem setNoticeMask_range (h : 32 ≤ m.toNat) : setNoticeMask p m s = refuse .range s := if_pos h

theorem setNoticeMask_taken (h : m.toNat < 32) (hl : (s.port p).lists = ls) : setNoticeMask p m s =
    accept (m :: ls.counts) (s.changePort p (fun r => { r with mask := maskOf m })) := by
  rw [setNoticeMask, if_neg (by omega), le_one, byte_maskOf h, hl]
  rfl

end

end Sys2Proof.Machine

namespace Sys2Proof.Settled

open Sys2Proof.Machine

/-- Settles O29: list by list, by whether the list has a head; a mask is taken or out of range. -/
theorem noticeRequests : Obligations.NoticeRequests := by
  unfold Obligations.NoticeRequests
  refine ⟨fun p tag s hl ha => ⟨fun code h => exec_popNotice_range hl ha h, ?_, ?_, ?_, ?_, ?_⟩, fun p tag m s hl ha =>
    ⟨fun h => ?_, fun h => ?_⟩⟩
  · obtain ⟨hempty, hhead⟩ := exec_popNotice_list (tag := tag) hl ha (show 0 ≤ 4 by omega) (xs := (s.port p).lists.done)
      (left := fun xs => { (s.port p).lists with done := xs }) rfl rfl
    split
    · next he => exact hempty he
    · next e rest he => exact hhead e rest he
  · obtain ⟨hempty, hhead⟩ := exec_popNotice_list (tag := tag) hl ha (show 1 ≤ 4 by omega) (xs := (s.port p).lists.failed)
      (left := fun xs => { (s.port p).lists with failed := xs }) rfl rfl
    split
    · next he => exact hempty he
    · next e rest he => exact e.bytes_eq ▸ hhead e rest he
  · obtain ⟨hempty, hhead⟩ := exec_popNotice_list (tag := tag) hl ha (show 2 ≤ 4 by omega) (xs := (s.port p).lists.starved)
      (left := fun xs => { (s.port p).lists with starved := xs }) rfl rfl
    split
    · next he => exact hempty he
    · next e rest he => exact hhead e rest he
  · obtain ⟨hempty, hhead⟩ := exec_popNotice_list (tag := tag) hl ha (show 3 ≤ 4 by omega) (xs := (s.port p).lists.restored)
      (left := fun xs => { (s.port p).lists with restored := xs }) rfl rfl
    split
    · next he => exact hempty he
    · next e rest he => exact e.bytes_eq ▸ hhead e rest he
  · obtain ⟨hempty, hhead⟩ := exec_popNotice_list (tag := tag) hl ha (show 4 ≤ 4 by omega) (xs := (s.port p).lists.expired)
      (left := fun xs => { (s.port p).lists with expired := xs }) rfl rfl
    split
    · next he => exact hempty he
    · next e rest he => exact hhead e rest he
  · exact exec_reads (r := .setNoticeMask m) rfl hl ha rfl rfl (setNoticeMask_range h)
  · exact exec_changesPort (r := .setNoticeMask m) (f := fun r => { r with mask := maskOf m }) (fun _ _ _ _ => rfl) rfl hl ha
      rfl rfl (setNoticeMask_taken h (State.heard_lists ..))

end Sys2Proof.Settled
end

section
/-! SUPPORT. R170 to R174, R182: what anything but a transaction, a reset line or the end of an operation does to the ports: it changes
lists, masks and marks, and leaves single keys single. -/

namespace Sys2Proof.Machine

/-- What a port record says of the link and of its operation: all but its lists, mask, marks and ATTN output. -/
def PortRecord.link (r : PortRecord) : PortRecord :=
  { r with lists := NoticeLists.empty, mask := NoticeMask.empty, sequence := .none, attn := false }

/-- From `q` to `q'`, every port keeps its link and operation, and lists with single keys keep them single. -/
structure Ports.Posts (q q' : Ports) : Prop where
  link : ∀ p, (q'.get p).link = (q.get p).link
  keys : ∀ p, (q.get p).lists.KeyLaw → (q'.get p).lists.KeyLaw

namespace Ports.Posts

theorem refl (q : Ports) : Ports.Posts q q := ⟨fun _ => rfl, fun _ => id⟩

theorem trans {q q' q'' : Ports} (h : Ports.Posts q q') (h' : Ports.Posts q' q'') : Ports.Posts q q'' :=
  ⟨fun p => (h'.link p).trans (h.link p), fun p hp => h'.keys p (h.keys p hp)⟩

/-- An event that every port hears. -/
theorem notify (q : Ports) {f : NoticeLists → NoticeLists} (hf : ∀ l : NoticeLists, l.KeyLaw → (f l).KeyLaw) :
    Ports.Posts q (q.notify f) :=
  ⟨fun p => by rw [Ports.get_notify]; rfl, fun p hp => by rw [Ports.get_notify]; exact hf _ hp⟩

theorem crossings (q : Ports) (c : ChapterId) (xs : List Crossing) :
    Ports.Posts q (q.notify (NoticeLists.postCrossings c xs)) := notify q fun _ hl => hl.postCrossings c xs

theorem naming (q : Ports) (gone : ChapterId → Bool) : Ports.Posts q (q.notify fun l => l.removeNaming gone) :=
  notify q fun _ hl => hl.removeNaming gone

/-- R72: marks end. -/
theorem dropMarks (q : Ports) (id : Nat) : Ports.Posts q (q.dropMarks id) :=
  ⟨fun p => by rw [Ports.get_dropMarks]; rfl, fun p hp => by rw [Ports.get_dropMarks]; exact hp⟩

/-- One port changes in its lists, mask and marks. -/
theorem changePort (s : State) (p : Port) {f : PortRecord → PortRecord} (hf : ∀ r, (f r).link = r.link)
    (hk : ∀ r : PortRecord, r.lists.KeyLaw → (f r).lists.KeyLaw) : Ports.Posts s.ports (s.changePort p f).ports := by
  have hport : ∀ q, (s.changePort p f).port q = if q = p then f (s.port q) else s.port q := fun q => by
    split
    · next he => rw [he, State.port_changePort_same]
    · next he => rw [State.port_changePort_other _ _ he]
  refine ⟨fun q => ?_, fun q hq => ?_⟩
  · refine (congrArg PortRecord.link (hport q)).trans ?_
    split
    · exact hf _
    · rfl
  · refine (congrArg (fun r => r.lists.KeyLaw) (hport q)).mpr ?_
    split
    · exact hk _ hq
    · exact hq

theorem setSequence (s : State) (p : Port) (d : DiscardSeq) : Ports.Posts s.ports (s.setSequence p d).ports :=
  changePort s p (fun _ => rfl) fun _ => id

section
variable (s : State)

/-! ### How renders and holds end -/

theorem endLane (i : Fin 4) (mark : Render → LastEnd) : Ports.Posts s.ports (s.endLane i mark).ports := by
  unfold State.endLane
  split
  · exact refl _
  · exact crossings ..

theorem endRender (c : ChapterId) (way : EndWay) : Ports.Posts s.ports (s.endRender c way).ports := by
  unfold State.endRender
  split
  · exact refl _
  · exact endLane ..

theorem failRender (i : Fin 4) (cause : FailCause) (group position : Option Nat) :
    Ports.Posts s.ports (s.failRender i cause group position).ports := by
  unfold State.failRender
  split
  · exact refl _
  · exact (endLane s i (Render.failedEnd cause group position)).trans (notify _ fun _ hl => hl.postFailed _ _)

theorem commit (i : Fin 4) : Ports.Posts s.ports (s.commit i).ports := by
  unfold State.commit
  split
  · exact refl _
  · exact notify _ fun _ hl => hl.postDone _ _

theorem endHold (slot : Nat) : Ports.Posts s.ports (s.endHold slot).ports := by
  rcases endHold_cases s slot with he | he | ⟨i, _, _, _, he⟩
  · rw [he]; exact refl _
  · rw [he]; exact refl _
  · rw [he]; exact commit (s.withoutHold slot) i

/-- R189: the lists of the port are emptied before its holds end. -/
theorem resetPort (p : Port) : Ports.Posts s.ports (s.resetPort p).ports :=
  foldl_keeps (P := fun t => Ports.Posts s.ports t.ports) (fun t slot h => h.trans (endHold t slot)) _
    (changePort s p (f := fun r => { r with lists := .empty, mask := .empty, sequence := .none }) (fun _ => rfl)
      fun _ _ => .empty)

theorem expireHold : Ports.Posts s.ports s.expireHold.ports := by
  unfold State.expireHold
  split
  · exact refl _
  · next slot h _ =>
    have hpost := changePort s h.owner (f := fun r => { r with
      lists := r.lists.postExpired slot (s.holdTable.generation slot) h.chapter h.rendition }) (fun _ => rfl)
      fun _ hl => hl.postExpired ..
    exact hpost.trans (endHold ..)

theorem blockFailed (take : Nat) (t : Take) (block g : Nat) : Ports.Posts s.ports (s.blockFailed take t block g).ports := by
  unfold State.blockFailed
  dsimp only
  split
  · exact dropMarks _ take
  · split <;> exact refl _

/-! ### What requests do -/

theorem unqueue (c : ChapterId) (k : Chapter) (way : EndWay) : Ports.Posts s.ports (s.unqueue c k way).ports := by
  unfold State.unqueue
  dsimp only
  split
  · split
    · exact refl _
    · exact endRender s c way
  · exact refl _

theorem editChapter (c : ChapterId) (k : Chapter) : Ports.Posts s.ports (s.editChapter c k).ports := by
  unfold State.editChapter
  dsimp only
  split
  · exact endRender (s.setChapter c _) c .aborted
  · exact refl _

theorem retire (th : Nat) (t : Title) : Ports.Posts s.ports (s.retire th t).ports :=
  ⟨fun p => (congrArg PortRecord.link (s.retire_port th t p)).trans rfl,
    fun p hp => (congrArg (fun r => r.lists.KeyLaw) (s.retire_port th t p)).mpr (hp.removeNaming _)⟩

theorem commitDiscard (p : Port) (take first last : Nat) : Ports.Posts s.ports (s.commitDiscard p take first last).ports := by
  have hs := setSequence (s.setTakeMem (s.takeMem.discardRun take first last)) p .none
  unfold State.commitDiscard
  dsimp only
  split
  · exact hs.trans (dropMarks _ take)
  · exact hs

theorem change {t : State} {p : Port} (hc : Change p s t) : Ports.Posts s.ports t.ports := by
  cases hc with
  | retired th t => exact retire s th t
  | deleted th index t k => exact (unqueue s ⟨th, index⟩ k .deleted).trans (naming ..)
  | edited th index t k k' up dn => exact editChapter (s.setTakeMem ((s.takeMem.raise up).lower dn)) ⟨th, index⟩ k'
  | cancelled th index t k => exact unqueue s ⟨th, index⟩ k .cancelled
  | closed slot => exact endHold s slot
  | popped code => exact changePort s p (fun _ => rfl) fun _ hl => hl.pop code
  | masked m => exact changePort s p (fun _ => rfl) fun _ => id
  | portReset => exact resetPort s p
  | takeFreed id t => exact dropMarks _ id
  | sequence d => exact setSequence s p d
  | discarded take first last => exact commitDiscard s p take first last
  | _ => exact refl _

/-! ### Dispatch, and the slots of the wheel -/

theorem dispatchOne : Ports.Posts s.ports s.dispatchOne.ports := by
  have hto : ∀ i c origin q, Ports.Posts s.ports (s.dispatchTo i c origin q).ports := fun i c origin q => by
    unfold State.dispatchTo
    split <;> exact refl _
  unfold State.dispatchOne
  split
  · exact refl _
  · split
    · exact hto ..
    · exact hto ..
    · exact refl _

variable (i : Fin 4) (r : Render)

theorem failRead (g : Nat) : Ports.Posts s.ports (s.failRead i r g).ports :=
  failRender { s with takeMem := s.takeMem.markFaulted g } ..

theorem measured (held : Option HeldBlock) (m : Meter) : Ports.Posts s.ports (s.measured i r held m).ports := by
  unfold State.measured
  split <;> exact refl _

theorem askCommit (gain : GainRecord) (saturated : Nat) (es : List Encoder) :
    Ports.Posts s.ports (s.askCommit i r gain saturated es).ports := by
  unfold State.askCommit
  split
  · exact refl _
  · exact commit (s.setRender i _) i

theorem takeFrame (held : Option HeldBlock) (gain : GainRecord) (saturated : Nat) (es : List Encoder) (pool : List Nat)
    (voiced : Bool) (ys : List Int) : Ports.Posts s.ports (s.takeFrame i r held gain saturated es pool voiced ys).ports := by
  unfold State.takeFrame State.endEncode
  dsimp only
  split
  · exact ((crossings s.ports ..).trans (crossings ..)).trans (askCommit { s with ports := _, rendMem := _ } ..)
  · exact crossings ..

theorem encoded (a : Assembly) (held : Option HeldBlock) (gain : GainRecord) (saturated : Nat) (es : List Encoder)
    (xs : List Int) : Ports.Posts s.ports (s.encoded i r a held gain saturated es xs).ports := by
  unfold State.encoded
  dsimp only
  split
  · exact takeFrame ..
  · exact failRender (State.setRender { s with rendMem := { s.rendMem with pool := _ } } i _) ..

variable {s i r} {t : State} {f : Option Nat}

theorem progress (ht : s.progress i r f = some t) : Ports.Posts s.ports t.ports := by
  unfold State.progress at ht
  split at ht
  · split at ht
    · cases ht
    · cases ht; exact failRead ..
    · cases ht; exact measured ..
  · split at ht
    · cases ht
    · cases ht; exact failRead ..
    · cases ht; exact encoded ..
  · cases ht; exact refl _

theorem grantSlot (ht : s.grantSlot f = some t) : Ports.Posts s.ports t.ports := by
  unfold State.grantSlot at ht
  split at ht
  · cases ht; exact refl _
  · split at ht
    · cases ht; exact refl _
    · split at ht
      · exact progress ht
      · cases ht; exact refl _

end

end Ports.Posts

/-! ### Every step -/

namespace State.NoticeLaw

theorem posts {s t : State} (h : s.NoticeLaw) (ht : Ports.Posts s.ports t.ports) : t.NoticeLaw := fun p => ht.keys p (h p)

theorem kept : Kept State.NoticeLaw where
  ports _ _ hq h p := (congrArg NoticeLists.KeyLaw (hq p)).mpr (h p)
  pending _ _ h := h
  resetHeld _ _ h := h
  change _ _ _ hc h := h.posts (.change _ hc)
  endFetch _ _ h := h
  endHold s slot h := h.posts (.endHold s slot)
  eraseStart _ h := h
  eraseDone _ h := h
  eraseFailed _ h := h
  dispatch s h := h.posts (.dispatchOne s)
  slot _ _ _ ht h := h.posts (.grantSlot ht)
  advance _ h := h
  clock _ h := h
  expire s h := h.posts (.expireHold s)
  abandon _ h p := match p with
    | .a => h .a
    | .b => h .b
    | .c => h .c
  restart _ _ _ _ _ _ p := match p with
    | .a | .b | .c => .empty
  blockDone _ _ _ _ _ _ h := h
  blockFailed s take t block g _ _ h := h.posts (.blockFailed s take t block g)

end State.NoticeLaw

end Sys2Proof.Machine

namespace Sys2Proof.Settled

open Sys2Proof.Machine

/-- Settles O55: an event posts or removes entries at a port, or empties its lists, and each of these leaves single keys single. -/
theorem stepsKeepNotices : Obligations.StepsKeepNotices := by
  unfold Obligations.StepsKeepNotices
  exact fun _ _ h hstep => State.NoticeLaw.kept.step hstep h

end Sys2Proof.Settled
end

section
/-! SUPPORT. R177, R182, R183, R190: every step leaves the ATTN outputs and the port records as the laws say. `Kept` does not fit: what
a request or the end of an operation may do to a port depends on the state that the port is in. -/

namespace Sys2Proof.Machine

/-! ### Transactions that a reset cuts off -/

theorem Span.mute_silent (b : List Byte) (sp : Span) : (sp.mute b).silent = true := by cases sp <;> rfl

theorem Span.lose_silent (b : List Byte) (sp : Span) : (sp.lose b).silent = sp.silent := by cases sp <;> rfl

theorem Span.lose_ne_replyReady (b : List Byte) (sp : Span) : sp.lose b ≠ .replyReady := by cases sp <;> exact Span.noConfusion

/-- R190: a transaction that sends 0x00 is none that began in IDLE or in REPLY_READY. -/
theorem Span.ne_of_silent {o : Option Span} (h : o.all Span.silent = true) : o ≠ some .idle ∧ o ≠ some .replyReady := by
  constructor <;> (rintro rfl; cases h)

theorem PortRecord.assertLine_silent (p : Port) (r : PortRecord) : (r.assertLine p).span.all Span.silent = true := by
  unfold PortRecord.assertLine PortRecord.cutSpan
  cases hsp : r.span with
  | none => rfl
  | some sp => exact Span.mute_silent _ sp

/-! ### Port records, by the state of the port -/

namespace PortRecord.PortLaw

variable {r r' : PortRecord}

/-- R182: the law is about the link and the operation alone. -/
theorem congr (h : r.PortLaw) (hl : r'.link = r.link) : r'.PortLaw :=
  (congrArg PortRecord.PortLaw hl : r'.link.PortLaw = r.link.PortLaw).mpr h

theorem of_idle (h : r.PortLaw) (hs : r.state = .idle) : r.reply = none ∧ r.operation = none ∧ r.discardMark = false := by
  obtain ⟨hreply, hop, hmark, -, -, -⟩ := h
  simp_all

theorem of_replyReady (h : r.PortLaw) (hs : r.state = .replyReady) : r.operation = none ∧ r.discardMark = false := by
  obtain ⟨-, hop, hmark, -, -, -⟩ := h
  simp_all

theorem of_executing (h : r.PortLaw) (hs : r.state = .executing) :
    r.reply = none ∧ r.operation.isSome = true ∧ r.span ≠ some .idle ∧ r.span ≠ some .replyReady := by
  obtain ⟨hreply, hop, -, hidle, hready, -⟩ := h
  simp_all

theorem of_operation {o : Operation} (h : r.PortLaw) (ho : r.operation = some o) : r.state = .executing := by
  obtain ⟨-, hop, -, -, -, -⟩ := h
  exact hop.1 (ho ▸ rfl)

theorem line (h : r.PortLaw) : r.resetLine = true → r.span.all Span.silent = true := by
  obtain ⟨-, -, -, -, -, hline⟩ := h
  exact hline

theorem idle (hs : r.state = .idle) (hreply : r.reply = none) (hop : r.operation = none) (hmark : r.discardMark = false)
    (hsp : r.span ≠ some .replyReady) (hline : r.resetLine = true → r.span.all Span.silent = true) : r.PortLaw := by
  refine ⟨?_, ?_, ?_, fun _ => hs, fun hr => absurd hr hsp, hline⟩ <;> simp [hs, hreply, hop, hmark]

theorem replyReady (hs : r.state = .replyReady) (hreply : r.reply.isSome = true) (hop : r.operation = none)
    (hmark : r.discardMark = false) (hsp : r.span ≠ some .idle)
    (hline : r.resetLine = true → r.span.all Span.silent = true) : r.PortLaw := by
  refine ⟨?_, ?_, ?_, fun hi => absurd hi hsp, fun _ => hs, hline⟩ <;> simp [hs, hreply, hop, hmark]

theorem executing (hs : r.state = .executing) (hreply : r.reply = none) (hop : r.operation.isSome = true)
    (hidle : r.span ≠ some .idle) (hready : r.span ≠ some .replyReady)
    (hline : r.resetLine = true → r.span.all Span.silent = true) : r.PortLaw := by
  refine ⟨?_, ?_, fun _ => hs, fun hi => absurd hi hidle, fun hr => absurd hr hready, hline⟩ <;> simp [hs, hreply, hop]

/-! ### What happens to a port -/

/-- R183: a transaction ends. -/
theorem closed (h : r.PortLaw) (sent : List Byte) (cuts : Nat) :
    PortRecord.PortLaw { r with span := none, sent := sent, cuts := cuts } := by
  obtain ⟨hreply, hop, hmark, -, -, -⟩ := h
  exact ⟨hreply, hop, hmark, nofun, nofun, fun _ => rfl⟩

/-- R183: the whole reply has been clocked out. -/
theorem collected (h : r.PortLaw) (hs : r.state = .replyReady) (hsp : r.span = none) :
    PortRecord.PortLaw { r with state := .idle, reply := none } := by
  obtain ⟨hop, hmark⟩ := h.of_replyReady hs
  exact .idle rfl rfl hop hmark (by simp [hsp]) h.line

/-- R186: a port in IDLE gets a reply. -/
theorem answer (h : r.PortLaw) (hs : r.state = .idle) (hsp : r.span = none) (x : Reply) :
    PortRecord.PortLaw { r with state := .replyReady, reply := some x } := by
  obtain ⟨-, hop, hmark⟩ := h.of_idle hs
  exact .replyReady rfl rfl hop hmark (by simp [hsp]) h.line

/-- R186: a port in IDLE starts an operation. -/
theorem execute (h : r.PortLaw) (hs : r.state = .idle) (hsp : r.span = none) (o : Operation) :
    PortRecord.PortLaw { r with state := .executing, operation := some o } := by
  obtain ⟨hreply, -, -⟩ := h.of_idle hs
  exact .executing rfl hreply rfl (by simp [hsp]) (by simp [hsp]) h.line

/-- R182: an operation ends under the discard mark. -/
theorem dropped (h : r.PortLaw) (hs : r.state = .executing) :
    PortRecord.PortLaw { r with state := .idle, operation := none, discardMark := false } := by
  obtain ⟨hreply, -, -, hready⟩ := h.of_executing hs
  exact .idle rfl hreply rfl rfl hready h.line

/-- R182: an operation ends with its reply. -/
theorem replied (h : r.PortLaw) (hs : r.state = .executing) (hm : r.discardMark = false) (x : Reply) :
    PortRecord.PortLaw { r with state := .replyReady, operation := none, reply := some x } := by
  obtain ⟨-, -, hidle, -⟩ := h.of_executing hs
  exact .replyReady rfl rfl rfl hm hidle h.line

/-- R190: the line is asserted while a device reset is held. -/
theorem assertLine (h : r.PortLaw) (p : Port) : (r.assertLine p).PortLaw := by
  have hsilent := r.assertLine_silent p
  obtain ⟨hidle, hready⟩ := Span.ne_of_silent hsilent
  obtain ⟨hreply, hop, hmark, -, -, -⟩ := h
  exact ⟨hreply, hop, hmark, fun hi => absurd hi hidle, fun hr => absurd hr hready, fun _ => hsilent⟩

/-- R190: the line is asserted; a reply is dropped, and an operation goes on under the discard mark. -/
theorem cutOff (h : r.PortLaw) (p : Port) : (r.cutOff p).PortLaw := by
  have hsilent : (r.cutOff p).span.all Span.silent = true := r.assertLine_silent p
  obtain ⟨hidle, hready⟩ := Span.ne_of_silent hsilent
  by_cases hs : r.state = .executing
  · obtain ⟨-, hop, -, -⟩ := h.of_executing hs
    exact .executing (if_pos hs) rfl hop hidle hready fun _ => hsilent
  · have hop : r.operation = none := Option.eq_none_iff_forall_ne_some.2 fun o ho => hs (h.of_operation ho)
    exact .idle (if_neg hs) rfl hop (decide_eq_false hs) hready fun _ => hsilent

/-- R190: the line is released. -/
theorem release (h : r.PortLaw) : PortRecord.PortLaw { r with resetLine := false } := by
  obtain ⟨hreply, hop, hmark, hidle, hready, -⟩ := h
  exact ⟨hreply, hop, hmark, hidle, hready, nofun⟩

/-- R191: a device reset begins or ends, and makes the port `r'`, in IDLE and with its transaction cut off. -/
theorem lost (h : r.PortLaw) (p : Port) (hs : r'.state = .idle) (hreply : r'.reply = none) (hop : r'.operation = none)
    (hmark : r'.discardMark = false) (hsp : r'.span = (r.cutSpan p Span.lose).span) (hline : r'.resetLine = r.resetLine) :
    r'.PortLaw := by
  have hcut : r'.span = r.span.map fun sp => sp.lose (sentBefore p r.cuts r.reply sp) := hsp
  refine .idle hs hreply hop hmark ?_ fun hl => ?_
  · rw [hcut]
    intro he
    obtain ⟨sp, -, he⟩ := Option.map_eq_some_iff.1 he
    exact Span.lose_ne_replyReady _ sp he
  · have hsilent := h.line (hline ▸ hl)
    rw [hcut]
    cases hr : r.span with
    | none => rfl
    | some sp =>
      rw [hr] at hsilent
      exact (Span.lose_silent _ sp).trans hsilent

end PortRecord.PortLaw

/-! ### The ports of the part -/

namespace State.PortLaw

variable {s t : State}

theorem posts (h : s.PortLaw) (ht : Ports.Posts s.ports t.ports) : t.PortLaw := fun p => (h p).congr (ht.link p)

theorem changePort (h : s.PortLaw) (p : Port) {f : PortRecord → PortRecord} (hf : (f (s.port p)).PortLaw) :
    (s.changePort p f).PortLaw := by
  intro q
  by_cases hq : q = p
  · subst hq
    rwa [State.port_changePort_same]
  · rw [State.port_changePort_other _ _ hq]
    exact h q

/-- R183, R190: a transaction that began in IDLE or in REPLY_READY, now or before, finds the port so, and one under the line is
silent. -/
theorem spanOf (h : s.PortLaw) (p : Port) : (s.spanOf p = .idle → (s.port p).state = .idle) ∧
    (s.spanOf p = .replyReady → (s.port p).state = .replyReady) ∧
    ((s.port p).resetLine = true → (s.spanOf p).silent = true) := by
  obtain ⟨-, -, -, hidle, hready, hline⟩ := h p
  unfold State.spanOf
  cases hsp : (s.port p).span with
  | some sp =>
    rw [hsp] at hidle hready hline
    exact ⟨fun he => hidle (congrArg some he), fun he => hready (congrArg some he), hline⟩
  | none =>
    unfold State.spanNow
    rw [Option.getD_none]
    split
    · exact ⟨nofun, nofun, fun _ => rfl⟩
    · next hl =>
      refine ⟨?_, ?_, fun hr => absurd hr hl⟩
      all_goals
        split
        · exact nofun
        · split <;> simp_all

theorem begun (h : s.PortLaw) (p : Port) : (s.changePort p fun r => { r with span := some (s.spanOf p) }).PortLaw := by
  obtain ⟨hidle, hready, hline⟩ := h.spanOf p
  refine h.changePort p ?_
  obtain ⟨hreply, hop, hmark, -, -, -⟩ := h p
  exact ⟨hreply, hop, hmark, fun he => hidle (Option.some.inj he), fun he => hready (Option.some.inj he), hline⟩

theorem closeSpan (h : s.PortLaw) (p : Port) (n : Nat) : (s.closeSpan p n).PortLaw := h.changePort p ((h p).closed _ _)

end State.PortLaw

/-- The laws of the ports hold, and port `p` is in IDLE without a transaction: it may take a request. -/
structure State.Rests (s : State) (p : Port) : Prop where
  ports : s.PortLaw
  state : (s.port p).state = .idle
  span  : (s.port p).span = none

namespace State.Rests

variable {s t : State} {p : Port}

theorem posts (h : s.Rests p) (ht : Ports.Posts s.ports t.ports) : t.Rests p :=
  ⟨h.ports.posts ht, (congrArg PortRecord.state (ht.link p)).trans h.state, (congrArg PortRecord.span (ht.link p)).trans h.span⟩

theorem setSequence (h : s.Rests p) (d : DiscardSeq) : (s.setSequence p d).Rests p := h.posts (.setSequence s p d)

theorem answer (h : s.Rests p) (tag : Byte) (b : Bool) (res : Result) : (s.answer p tag b res).PortLaw :=
  h.ports.changePort p ((h.ports p).answer h.state h.span _)

theorem execute (h : s.Rests p) (tag : Byte) (b : Bool) (w : Work) : (s.execute p tag b w).PortLaw :=
  h.ports.changePort p ((h.ports p).execute h.state h.span _)

theorem turnAway (h : s.Rests p) (tag : Byte) (st : Status) : (s.turnAway p tag st).PortLaw :=
  (h.setSequence .none).answer _ _ _

theorem interrupt (h : s.Rests p) (r : Request) : (s.interrupt p r).Rests p := by
  unfold State.interrupt
  split
  · exact h
  · exact h.setSequence .none

theorem settle (h : s.Rests p) (tag : Byte) (r : Request) (b : Bool) (a : Answer) : (s.settle p tag r b a).PortLaw := by
  unfold State.settle
  split
  · exact h.execute _ _ _
  · split
    · exact h.answer _ _ _
    · exact (h.setSequence .none).answer _ _ _

theorem takeRequest (h : s.Rests p) (tag : Byte) (r : Request) : (s.takeRequest p tag r).PortLaw := by
  unfold State.takeRequest
  split
  · exact h.turnAway tag _
  split
  · exact h.turnAway tag _
  · exact ((h.interrupt r).posts (.change _ (handle_change p r _))).settle tag r _ _

theorem takeBytes (h : s.Rests p) (bs : List Byte) : (s.takeBytes p bs).PortLaw := by
  unfold State.takeBytes
  split
  · exact h.ports
  · exact h.turnAway _ _
  · exact h.takeRequest _ _

end State.Rests

namespace State.PortLaw

variable {s t : State}

/-- R183, R184: `take` is what the bytes of the transaction do at a port that may take a request. -/
theorem endSpan (h : s.PortLaw) (p : Port) (n : Nat) {take : State → State} (ht : ∀ u : State, u.Rests p → (take u).PortLaw) :
    (s.endSpan p n take).PortLaw := by
  obtain ⟨hidle, hready, -⟩ := h.spanOf p
  have hclosed := h.closeSpan p n
  have hstate : ((s.closeSpan p n).port p).state = (s.port p).state := by rw [State.closeSpan, State.port_changePort_same]
  have hspan : ((s.closeSpan p n).port p).span = none := by rw [State.closeSpan, State.port_changePort_same]
  unfold State.endSpan
  split
  · next he => exact ht _ ⟨hclosed, hstate.trans (hidle he), hspan⟩
  · next he =>
    split
    · exact hclosed.changePort p ((hclosed p).collected (hstate.trans (hready he)) hspan)
    · exact hclosed
  all_goals exact hclosed

/-! ### The ends of operations -/

/-- R182: the operation of a port ends; `u` is the part when its end has left its effect. -/
theorem completeOp (h : s.PortLaw) {p : Port} {o : Operation} (ho : (s.port p).operation = some o) {u : State}
    (hu : Ports.Posts s.ports u.ports) (res : Result) : (u.completeOp p o res).PortLaw := by
  have hlaw := h.posts hu
  have hs : (u.port p).state = .executing := (congrArg PortRecord.state (hu.link p)).trans ((h p).of_operation ho)
  rw [State.completeOp_eq rfl]
  split
  · exact hlaw.changePort p ((hlaw p).dropped hs)
  · next hm => exact hlaw.changePort p ((hlaw p).replied hs (Bool.eq_false_iff.2 hm) _)

theorem programDone (h : s.PortLaw) (p : Port) : (s.programDone p).PortLaw := by
  unfold State.programDone
  split
  · exact h
  next ho =>
  split
  · exact h
  next take block data _ =>
  split
  · exact h
  · next t _ => exact h.completeOp ho (u := s.setTakeMem (s.takeMem.blockDone take t block data)) (.refl _) _

theorem programFailed (h : s.PortLaw) (p : Port) : (s.programFailed p).PortLaw := by
  unfold State.programFailed
  split
  · exact h
  next ho =>
  split
  · exact h
  split
  · exact h
  split
  · exact h
  · exact h.completeOp ho (.blockFailed ..) _

theorem fetchDone (h : s.PortLaw) (p : Port) : (s.fetchDone p).PortLaw := by
  unfold State.fetchDone
  split
  · exact h
  next ho =>
  split
  · exact h
  next slot _ _ =>
  split
  · exact h.completeOp ho (.endHold (s.endFetch slot) slot) _
  · exact h.completeOp ho (u := s.endFetch slot) (.refl _) _

/-! ### Device resets -/

theorem abandonAll (h : s.PortLaw) : s.abandonAll.PortLaw := fun p => match p with
  | .a => (h .a).lost .a rfl rfl rfl rfl rfl rfl
  | .b => (h .b).lost .b rfl rfl rfl rfl rfl rfl
  | .c => (h .c).lost .c rfl rfl rfl rfl rfl rfl

theorem restart (h : s.PortLaw) (cause : ResetCause) (ra rb rc : Role) : (s.restart cause ra rb rc).PortLaw := fun p =>
  match p with
  | .a => (h .a).lost .a rfl rfl rfl rfl rfl rfl
  | .b => (h .b).lost .b rfl rfl rfl rfl rfl rfl
  | .c => (h .c).lost .c rfl rfl rfl rfl rfl rfl

/-! ### Every command -/

/-- R177: every meaning ends with the ATTN outputs driven. -/
theorem finish (h : s.PortLaw) (ht : Machine.finish s = .next t) : t.AttnLaw ∧ t.PortLaw := by
  cases ht
  refine ⟨fun p => ?_, fun p => ?_⟩
  · rw [State.port_driveAttn, State.driveAttn_resetHeld]
  · exact (h p).congr (by rw [State.port_driveAttn]; rfl)

theorem event (h : s.PortLaw) {f : State → State} (hf : (f s).PortLaw) (ht : Machine.event f s = .next t) :
    t.AttnLaw ∧ t.PortLaw := by
  unfold Machine.event at ht
  refine finish ?_ ht
  split
  · exact h
  · exact hf

theorem exec (h : s.PortLaw) {i : Instr} (ht : Machine.exec i s = .next t) : t.AttnLaw ∧ t.PortLaw := by
  cases i with
  | deviceReset cause sa sb sc => exact finish (h.restart _ _ _ _) ht
  | resetPinAsserted cause => exact finish (s := { s.abandonAll with resetHeld := some (joinCause s.resetHeld cause) }) h.abandonAll ht
  | transaction p rx x => exact finish (h.endSpan p _ fun _ hu => hu.takeBytes _) ht
  | transactionBegin p => exact finish (h.begun p) ht
  | portResetLine p =>
    refine finish ?_ ht
    split
    · exact h.changePort p ((h p).assertLine p)
    · exact (h.changePort p ((h p).cutOff p)).posts (.resetPort ..)
  | portResetLineRelease p => exact finish (h.changePort p (h p).release) ht
  | programCompletion p => exact h.event (f := fun s => s.programDone p) (h.programDone p) ht
  | programFault p => exact h.event (f := fun s => s.programFailed p) (h.programFailed p) ht
  | fetchCompletion p => exact h.event (f := fun s => s.fetchDone p) (h.fetchDone p) ht
  | eraseStart => exact h.event (f := fun s => s.setTakeMem s.takeMem.eraseStart) h ht
  | eraseCompletion => exact h.event (f := fun s => s.setTakeMem s.takeMem.eraseDone) h ht
  | eraseFault => exact h.event (f := fun s => s.setTakeMem s.takeMem.eraseFailed) h ht
  | dispatch => exact h.event (h.posts (.dispatchOne s)) ht
  | wheelSlot f =>
    simp only [Machine.exec, execWheelSlot] at ht
    split at ht
    · exact finish h ht
    · split at ht
      · cases ht
      · next u hu =>
        have hgranted : u.PortLaw := h.posts (.grantSlot hu)
        exact finish (s := u.advanceWheel) hgranted ht
  | holdClockStep => exact h.event (f := fun s => { s with holdTable := s.holdTable.clockStep }) h ht
  | holdExpiry => exact h.event (h.posts (.expireHold s)) ht
  | _ => exact finish (h.endSpan _ _ fun _ hu => hu.takeRequest _ _) ht

theorem step (h : s.PortLaw) (ha : s.AttnLaw) (ht : Machine.step s = .next t) : t.AttnLaw ∧ t.PortLaw := by
  unfold Machine.step at ht
  split at ht
  · cases ht
    exact ⟨ha, h⟩
  · next l _ => exact exec (s := { s with pending := l }) h ht

end State.PortLaw

end Sys2Proof.Machine

namespace Sys2Proof.Settled

open Sys2Proof.Machine

/-- Settles O51: every command ends by driving the ATTN outputs, and what it does to a port fits the state that the port is in. -/
theorem stepsKeepPorts : Obligations.StepsKeepPorts := by
  unfold Obligations.StepsKeepPorts
  exact fun _ _ ha hp hstep => hp.step ha hstep

end Sys2Proof.Settled
end

section
/-! SUPPORT. R184, R187: the frame of a request is read back field by field, and the span that carries it is the request's command. -/

namespace Sys2Proof.Machine

/-! ### The fields of a frame -/

theorem length_operandBytes (r : Request) : (operandBytes r).length = operandLength r := by
  cases r with
  | writeBlock th take block data crc => simp [operandBytes, operandLength]; omega
  | _ => simp [operandBytes, operandLength]

theorem length_requestFrame (tag : Byte) (r : Request) : (requestFrame tag r).length = 6 + operandLength r := by
  simp [requestFrame, length_operandBytes]; omega

/-- A signed field that fits its two bytes, with whatever stands behind it. -/
theorem fieldI_first {x : Int} (h1 : -32768 ≤ x) (h2 : x ≤ 32767) (bs : List Byte) : fieldI (leI x ++ bs) 0 = x := by
  rw [fieldI, leI, fieldAt_first 2 _ _ (BitVec.isLt _), toInt_leI x (by simp [h1, h2])]

theorem fieldI_only {x : Int} (h1 : -32768 ≤ x) (h2 : x ≤ 32767) : fieldI (leI x) 0 = x := by
  simpa using fieldI_first h1 h2 []

theorem fieldI_skip (x : Int) (bs : List Byte) {i : Nat} (h : 2 ≤ i) : fieldI (leI x ++ bs) i = fieldI bs (i - 2) := by
  rw [fieldI, leI, fieldAt_skip 2 _ _ _ _ h, fieldI]

theorem fieldI_cons (b : Byte) (bs : List Byte) {i : Nat} (h : 1 ≤ i) : fieldI (b :: bs) i = fieldI bs (i - 1) := by
  rw [fieldI, fieldAt_cons b bs i 2 h, fieldI]

/-- The six fields of a segment that stands last are read back. -/
theorem segmentAt_last {g : Segment} (h : g.wellFormed = true) (m n : Nat) :
    segmentAt (le 1 m ++ (le 1 n ++ segmentBytes g)) 2 = g := by
  simp only [Segment.wellFormed, Bool.and_eq_true, decide_eq_true_eq] at h
  simp (disch := omega) [segmentAt, segmentBytes, fieldAt_skip, fieldAt_first, fieldAt_only]

/-- The six fields of a profile that stands last are read back. -/
theorem profileAt_last {q : Profile} (h : q.wellFormed = true) (n : Nat) : profileAt (le 1 n ++ profileBytes q) 1 = q := by
  simp only [Profile.wellFormed, Bool.and_eq_true, decide_eq_true_eq] at h
  simp (disch := omega) [profileAt, profileBytes, fieldAt_skip, fieldAt_first, fieldAt_only]

/-- The five loudness values that stand last are read back. -/
theorem loudnessAt_last {l : Loudness} (h : l.wellFormed = true) (b : Byte) : loudnessAt (b :: loudnessBytes l) 1 = l := by
  simp only [Loudness.wellFormed, fitsI, Bool.and_eq_true, decide_eq_true_eq] at h
  simp (disch := omega) [loudnessAt, loudnessBytes, fieldI_cons, fieldI_skip, fieldI_first, fieldI_only]

/-! ### The request of a frame -/

/-- The operands of a well-formed request, read under its class and code, are the request. -/
theorem readRequest_operandBytes {r : Request} (h : r.wellFormed = true) :
    readRequest (requestClass r).byte (requestCode r) (titleByte r) (operandBytes r) = some r := by
  cases r with
  | writeBlock th take block data crc =>
    simp only [Request.wellFormed, Bool.and_eq_true, decide_eq_true_eq] at h
    obtain ⟨⟨⟨-, htake⟩, hblock⟩, hdata⟩ := h
    have hcrc : fieldAt (data ++ le 2 crc.toNat) 3072 2 = crc.toNat := by
      have hskip := fieldAt_append data (le 2 crc.toNat) 0 2
      rwa [hdata, fieldAt_only 2 _ crc.isLt] at hskip
    have hbytes : ((le 2 take ++ (le 4 block ++ (data ++ le 2 crc.toNat))).drop 6).take 3072 = data := by
      rw [← List.append_assoc, List.drop_left' (by simp), List.take_left' hdata]
    simp (disch := omega) [requestClass, RequestClass.byte, requestCode, titleByte, operandBytes, readRequest, readTake, hdata,
      fieldAt_first, fieldAt_skip, hcrc, hbytes]
  | insertSegment th chapter position g =>
    simp only [Request.wellFormed, Bool.and_eq_true, decide_eq_true_eq] at h
    obtain ⟨⟨⟨-, hchapter⟩, hposition⟩, hg⟩ := h
    simp (disch := omega) [requestClass, RequestClass.byte, requestCode, titleByte, operandBytes, readRequest, readPlan,
      fieldAt_first, fieldAt_skip, segmentAt_last hg]
  | replaceSegment th chapter position g =>
    simp only [Request.wellFormed, Bool.and_eq_true, decide_eq_true_eq] at h
    obtain ⟨⟨⟨-, hchapter⟩, hposition⟩, hg⟩ := h
    simp (disch := omega) [requestClass, RequestClass.byte, requestCode, titleByte, operandBytes, readRequest, readPlan,
      fieldAt_first, fieldAt_skip, segmentAt_last hg]
  | setProfile th index q =>
    simp only [Request.wellFormed, Bool.and_eq_true, decide_eq_true_eq] at h
    obtain ⟨⟨-, hindex⟩, hq⟩ := h
    simp (disch := omega) [requestClass, RequestClass.byte, requestCode, titleByte, operandBytes, readRequest, readPlan,
      fieldAt_first, profileAt_last hq]
  | setTitleParams th mask values =>
    simp only [Request.wellFormed, Bool.and_eq_true, decide_eq_true_eq] at h
    obtain ⟨-, hvalues⟩ := h
    simp [requestClass, RequestClass.byte, requestCode, titleByte, operandBytes, readRequest, readPlan, loudnessAt_last hvalues]
  | setHoldLimit seconds =>
    simp only [Request.wellFormed, fitsI, Bool.and_eq_true, decide_eq_true_eq] at h
    obtain ⟨h1, h2⟩ := h
    simp [requestClass, RequestClass.byte, requestCode, operandBytes, readRequest, readRender, fieldI_only h1 h2]
  | setLanes | setNoticeMask => rfl
  | _ =>
    simp only [Request.wellFormed, Bool.and_eq_true, decide_eq_true_eq] at h
    simp (disch := omega) [requestClass, RequestClass.byte, requestCode, titleByte, operandBytes, readRequest, readTake, readPlan,
      readRender, readRead, readQuery, fieldAt_first, fieldAt_skip, fieldAt_only]

/-- The four numbers of the header of a well-formed request fit their fields, and the operand length is one that R185 allows. -/
theorem header_fits {r : Request} (h : r.wellFormed = true) :
    (requestClass r).byte < 256 ∧ requestCode r < 256 ∧ titleByte r < 256 ∧ operandLength r ≤ 3200 := by
  cases r <;>
    simp_all [Request.wellFormed, requestClass, RequestClass.byte, requestCode, titleByte, operandLength]

/-- R184: the port reads the frame of a well-formed request as that request. -/
theorem receive_requestFrame (tag : Byte) {r : Request} (h : r.wellFormed = true) :
    receive (requestFrame tag r) = .request tag r := by
  obtain ⟨hclass, hcode, hth, hlen⟩ := header_fits h
  have hl : unle [BitVec.ofNat 8 (operandLength r), BitVec.ofNat 8 (operandLength r / 256)] = operandLength r :=
    unle_le 2 _ (by omega)
  simp only [requestFrame, le, List.cons_append, List.nil_append, receive, hl, length_operandBytes, BitVec.toNat_ofNat,
    Nat.mod_eq_of_lt hclass, Nat.mod_eq_of_lt hcode, Nat.mod_eq_of_lt hth, readRequest_operandBytes h]
  rw [if_neg (lt_irrefl _), if_neg (by omega)]

/-- R184: a span that carries the frame of a well-formed request is the span of that request. -/
theorem exec_transaction_frame (p : Port) (tag first : Byte) {r : Request} (x : Nat) (s : State) (h : r.wellFormed = true) :
    exec (.transaction p (first :: requestFrame tag r) x) s = request p tag r s := by
  have hn : (first :: requestFrame tag r).length = 7 + operandLength r := by
    rw [List.length_cons, length_requestFrame]; omega
  have htake : (fun u : State => u.takeBytes p (requestFrame tag r)) = fun u => u.takeRequest p tag r := by
    funext u
    rw [State.takeBytes, receive_requestFrame tag h]
  exact congrArg finish (congrArg₂ (s.endSpan p) hn htake)

end Sys2Proof.Machine

namespace Sys2Proof.Settled

open Sys2Proof.Machine

/-- Settles O4: each field of the frame is read back from the place it was written to. -/
theorem frameReadsBack : Obligations.FrameReadsBack := by
  unfold Obligations.FrameReadsBack
  exact fun tag _ h => receive_requestFrame tag h

/-- Settles O5: the port reads the frame as the request, and the span has the length of the request's own. -/
theorem transactionIsItsRequest : Obligations.TransactionIsItsRequest := by
  unfold Obligations.TransactionIsItsRequest
  intro i p tag first r x s hi h
  rw [exec_request hi]
  exact exec_transaction_frame p tag first x s h

end Sys2Proof.Settled
end

section
/-! SUPPORT. R182, R183, R187: what a transaction comes to by what its beginning decided: frames that are no request, replies
collected, and the beginning of a transaction. -/

namespace Sys2Proof.Machine

/-! ### Bytes that are no request -/

/-- R184: no byte, or fewer than the header and its operand length ask for, is no request. -/
theorem receive_short {rx : List Byte} (h : rx.length < 7 ∨ rx.length < 7 + fieldAt rx 5 2) : receive rx.tail = .discarded := by
  match rx with
  | [] | [_] | [_, _] | [_, _, _] | [_, _, _, _] | [_, _, _, _, _] | [_, _, _, _, _, _] => rfl
  | first :: cls :: code :: tag :: th :: l0 :: l1 :: bs =>
    have hl : bs.length < unle [l0, l1] := by
      simp only [List.length_cons, fieldAt, List.drop_succ_cons, List.drop_zero, List.take_succ_cons, List.take_zero] at h
      omega
    exact if_pos hl

/-- R187: the length of a reply frame. -/
theorem Reply.length_bytes (r : Reply) : r.bytes.length = 5 + r.results.length := by
  simp [Reply.bytes]; omega

/-- R187, R188: the header of a reply frame, byte by byte. -/
theorem Reply.bytes_eq (r : Reply) : r.bytes = BitVec.ofNat 8 r.status.code :: r.tag :: BitVec.ofNat 8 r.flags.byte ::
    BitVec.ofNat 8 r.results.length :: BitVec.ofNat 8 (r.results.length / 256) :: r.results := rfl

/-! ### Transactions, by what their beginning decided -/

section
variable {s : State} {p : Port}

/-- R183: the span of a transaction that begins and ends now at a port without reset. -/
theorem State.spanOf_now (hsp : (s.port p).span = none) (hl : (s.port p).resetLine = false) (hh : s.resetHeld = none) :
    s.spanOf p = match (s.port p).state with
      | .idle => .idle
      | .executing => .executing
      | .replyReady => .replyReady := by
  rw [State.spanOf, hsp, Option.getD_none, State.spanNow, hl, hh]
  rfl

/-- R183: the end of a transaction that is no request, whatever `take` would do with its bytes. -/
theorem State.endSpan_executing (h : s.spanOf p = .executing) (n : Nat) (take : State → State) :
    s.endSpan p n take = s.changePort p (fun q => { q with
      span := none, sent := (0x20#8 :: List.replicate n 0#8).take n }) := by
  rw [State.endSpan, h]
  simp only [State.closeSpan, h]
  rfl

theorem State.endSpan_idle (h : s.spanOf p = .idle) (n : Nat) (take : State → State) :
    s.endSpan p n take = take (s.changePort p (fun q => { q with
      span := none, sent := (0x10#8 :: List.replicate n 0#8).take n })) := by
  rw [State.endSpan, h]
  simp only [State.closeSpan, h]
  rfl

theorem State.endSpan_replyReady {rep : Reply} (h : s.spanOf p = .replyReady) (hr : (s.port p).reply = some rep) (n : Nat)
    (take : State → State) :
    s.endSpan p n take = s.changePort p (fun q => { q with
      state := if 6 + rep.results.length ≤ n then .idle else q.state,
      reply := if 6 + rep.results.length ≤ n then none else some rep,
      span := none,
      sent := (0x30#8 :: (rep.bytes ++ List.replicate n 0#8)).take n }) := by
  have hwhole : repliedWhole (s.port p).reply n = decide (6 + rep.results.length ≤ n) := by
    simp only [repliedWhole, spanHead, hr, List.length_cons, Reply.length_bytes]
    congr 2
    omega
  rw [State.endSpan, h]
  simp only [hwhole, decide_eq_true_eq, State.closeSpan, State.collected, h]
  split
  · next hn =>
    rw [State.changePort_changePort]
    refine State.changePort_congr ?_
    simp only [hr]
    rfl
  · next hn =>
    refine State.changePort_congr ?_
    simp only [hr]
    rfl

end

/-- R188: the flags byte gives each flag its bit. -/
theorem ReplyFlags.byte_eq (f : ReplyFlags) : f.byte =
    (if f.discardReset then 2 ^ 0 else 0) + (if f.stale then 2 ^ 1 else 0) + (if f.clamped then 2 ^ 2 else 0) +
      (if f.skipped then 2 ^ 3 else 0) + (if f.existing then 2 ^ 4 else 0) + (if f.freed then 2 ^ 5 else 0) +
      (if f.empty then 2 ^ 6 else 0) := by
  simp [ReplyFlags.byte, yesNo]

end Sys2Proof.Machine

namespace Sys2Proof.Settled

open Sys2Proof.Machine

/-- Settles O6: such bytes are no request, and a transaction that begins at an EXECUTING port takes none. -/
theorem framesDiscarded : Obligations.FramesDiscarded := by
  unfold Obligations.FramesDiscarded
  refine ⟨fun p rx x s hl hshort => ?_, fun p rx x s hsp hst hline hheld => ?_, fun i p tag r s hi hsp hst hline hheld => ?_⟩
  · refine congrArg finish ((State.endSpan_idle (State.spanOf_listens hl) _ _).trans ?_)
    simp only [State.takeBytes, receive_short hshort]
  · have hspan : s.spanOf p = .executing := by rw [State.spanOf_now hsp hline hheld, hst]
    refine congrArg finish ((State.endSpan_executing hspan _ _).trans (State.changePort_congr ?_))
    rw [← hsp]
  · have hspan : s.spanOf p = .executing := by rw [State.spanOf_now hsp hline hheld, hst]
    rw [exec_request hi]
    refine congrArg finish ((State.endSpan_executing hspan _ _).trans (State.changePort_congr ?_))
    rw [← hsp, show 7 + operandLength r = (6 + operandLength r) + 1 by omega]
    simp

/-- Settles O7: the transaction sends the reply, and collects it when it is long enough for the whole of it. -/
theorem replyCollected : Obligations.ReplyCollected := by
  unfold Obligations.ReplyCollected
  intro p rx x s rep hr hsp
  refine ⟨?_, ?_⟩
  · rw [Reply.bytes_eq, ReplyFlags.byte_eq]
    cases rep.status <;> rfl
  · have hspan : s.spanOf p = .replyReady := by
      rcases hsp with hsp | ⟨hsp, hst, hline, hheld⟩
      · rw [State.spanOf, hsp, Option.getD_some]
      · rw [State.spanOf_now hsp hline hheld, hst]
    exact congrArg finish (State.endSpan_replyReady hspan hr _ _)

/-- Settles O8: a transaction in progress goes on, and else the state of the port and the reset lines decide. -/
theorem transactionBegins : Obligations.TransactionBegins := by
  unfold Obligations.TransactionBegins
  intro p s
  refine congrArg finish (State.changePort_congr ?_)
  have hspan : s.spanOf p = match (s.port p).span with
      | some sp => sp
      | none => s.spanNow p := by
    rw [State.spanOf]
    cases (s.port p).span <;> rfl
  rw [hspan, State.spanNow]
  simp only [Option.isSome_iff_ne_none] <;> rfl

end Sys2Proof.Settled
end

section
/-! SUPPORT. R2, R185, R187: the checks ahead of the title's state: which classes, codes and operand lengths name a request, the header
of each request's frame, and what the port answers where a check fails. -/

namespace Sys2Proof.Machine

/-! ### What names a request -/

section
variable {cls code th : Nat} {bs : List Byte} {r : Request}

theorem readTake_ne_none : readTake code th bs ≠ none ↔
    (code, bs.length) ∈ [(1, 0), (2, 3080), (3, 4), (4, 4), (5, 4), (6, 0)] := by
  unfold readTake
  split <;> simp_all

theorem readPlan_ne_none : readPlan code th bs ≠ none ↔
    (code, bs.length) ∈ [(1, 8), (2, 11), (3, 12), (4, 1), (5, 10), (6, 0), (7, 0), (8, 0), (9, 0), (10, 0), (11, 1), (12, 1),
      (13, 9), (14, 20), (15, 20), (16, 2)] := by
  unfold readPlan
  split <;> simp_all

theorem readRender_ne_none : readRender code th bs ≠ none ↔
    (code, bs.length) ∈ [(1, 2), (2, 1), (3, 4), (4, 1), (5, 2)] := by
  unfold readRender
  split <;> simp_all

theorem readRead_ne_none : readRead code th bs ≠ none ↔ (code, bs.length) ∈ [(1, 2), (2, 8), (3, 2)] := by
  unfold readRead
  split <;> simp_all

theorem readQuery_ne_none : readQuery code th bs ≠ none ↔
    (code, bs.length) ∈ [(1, 0), (2, 1), (3, 4), (4, 0), (5, 1), (6, 1), (7, 0), (8, 0)] := by
  unfold readQuery
  split <;> simp_all

/-- R187: the request that is read has the class, the code, the operand length and the title handle that it is read under. -/
theorem readRequest_row (h : readRequest cls code th bs = some r) :
    (cls, code, bs.length) = frameRow r ∧ (usesTitle r = true → titleByte r = th) := by
  unfold readRequest at h
  split at h
  case h_6 => cases h
  all_goals
    simp only [readTake, readPlan, readRender, readRead, readQuery] at h
    split at h
    all_goals simp only [Option.ite_none_right_eq_some, Option.some.injEq, reduceCtorEq] at h
    all_goals
      obtain ⟨hl, rfl⟩ := h
      exact ⟨by rw [hl]; rfl, by simp [usesTitle, titleByte]⟩

/-- R187: the class byte, the code and the operand length of a well-formed request are those of its row. -/
theorem frameRow_eq (h : r.wellFormed = true) : frameRow r = ((requestClass r).byte, requestCode r, operandLength r) := by
  cases r with
  | writeBlock th take block data crc =>
    simp only [Request.wellFormed, Bool.and_eq_true, decide_eq_true_eq] at h
    simp [frameRow, requestClass, RequestClass.byte, requestCode, operandLength, h.2]
  | _ => rfl

/-- R185: the header gives 0 for a request that does not use its title handle byte. -/
theorem titleByte_unused (h : usesTitle r = false) : titleByte r = 0 := by
  cases r with
  | registerTitle | setWheel | setLanes | setHoldLimit | laneInfo | popNotice | setNoticeMask | deviceStatus | portReset => rfl
  | _ => cases h

end

/-! ### What the port answers -/

section
variable {s : State} {p : Port} {tag : Byte}

/-- R185 steps 1 and 2: a frame that is turned away. -/
theorem State.turnAway_heardOn (k : Nat) (st : Status) :
    ((s.heardOn p k).turnAway p tag st).driveAttn = s.answered p tag k (s.marked p) { status := st } := by
  simp [State.turnAway, State.answered, State.replied, State.answer, State.setSequence, State.changePort, State.setPort,
    State.heardOn, State.port, State.marked]

/-- R185 step 1: a whole frame whose bytes are MALFORMED. -/
theorem exec_frame_malformed {first : Byte} {bs : List Byte} (hl : s.listens p) (k : Nat) (hk : bs.length = 6 + k)
    (hm : receive bs = .malformed tag) (x : Nat) :
    exec (.transaction p (first :: bs) x) s = .next (s.answered p tag k (s.marked p) { status := .malformed }) := by
  have hn : (first :: bs).length = 7 + k := by rw [List.length_cons, hk]; omega
  refine congrArg Host.Outcome.next (Eq.trans (congrArg State.driveAttn ?_) (State.turnAway_heardOn k .malformed))
  rw [hn, State.endSpan, State.spanOf_listens hl]
  simp only [State.closeSpan_listens hl, State.takeBytes, List.tail_cons, hm]

/-- R185 step 2: a request of a class that the port's role does not accept. -/
theorem exec_class_refused {i : Instr} {r : Request} (hi : i.request? = some (p, tag, r)) (hl : s.listens p)
    (hf : formatOk r = true) (ha : ¬ s.allows p (requestClass r)) :
    exec i s = .next (s.answered p tag (operandLength r) (s.marked p) { status := .class_ }) := by
  have hrole : ((s.heardOn p (operandLength r)).port p).role.accepts (requestClass r) = false := by
    simpa [State.heardOn, State.allows] using ha
  rw [exec_request hi, request_taken tag hl, State.takeRequest, if_neg (by simp [hf]), if_pos hrole, State.turnAway_heardOn]

/-- R2: a handle of 0, above 4 or of a FREE record resolves to no title. -/
theorem State.title_none {th : Nat} (h : th = 0 ∨ 4 < th ∨ Tab.look s.titles th = none) : s.title? th = none := by
  unfold State.title?
  split
  · rcases h with h | h | h
    · omega
    · omega
    · exact h
  · rfl

theorem withTitle_none {th : Nat} {k : Title → Answer × State} (h : s.title? th = none) :
    withTitle th s k = refuse .badHandle s := by
  simp [withTitle, h]

/-- R2, R185 step 3: the owner of a request whose title handle resolves to no title. -/
theorem handle_badHandle {r : Request} (hu : usesTitle r = true) (h : s.title? (titleByte r) = none) :
    handle p r s = refuse .badHandle s := by
  cases r with
  | registerTitle | setWheel | setLanes | setHoldLimit | laneInfo | popNotice | setNoticeMask | deviceStatus | portReset =>
    cases hu
  | _ => exact withTitle_none h

end

end Sys2Proof.Machine

namespace Sys2Proof.Settled

open Sys2Proof.Machine

/-- Settles O9: the format, the class and the title handle are checked in this order, ahead of the request's owner. -/
theorem refusedBeforeTheTitle : Obligations.RefusedBeforeTheTitle := by
  unfold Obligations.RefusedBeforeTheTitle
  refine ⟨⟨fun p first cls code tag th l0 l1 bs x s hl hwhole hbad => ?_, fun cls code th bs => ?_,
    fun cls code th bs r h => readRequest_row h, fun tag r hw => ?_⟩,
    fun i p tag r s hi hl hf ha => exec_class_refused hi hl hf ha, fun i p tag r s hi hl hf ha hu hth => ?_⟩
  · have hlen : unle [l0, l1] = l0.toNat + 256 * l1.toNat := by simp [unle]
    refine exec_frame_malformed hl bs.length (by simp only [List.length_cons]; omega) ?_ x
    rw [← hlen] at hwhole hbad
    rw [receive, if_neg (by omega)]
    split
    · rfl
    · next hfit => rw [(hbad.resolve_left (by omega)).resolve_left (by omega)]
  · unfold readRequest
    split
    · simp [readTake_ne_none]
    · simp [readPlan_ne_none]
    · simp [readRender_ne_none]
    · simp [readRead_ne_none]
    · simp [readQuery_ne_none]
    · simp_all
  · have hth : (if usesTitle r then titleByte r else 0) = titleByte r := by
      split
      · rfl
      · next hu => exact (titleByte_unused (by simpa using hu)).symm
    rw [frameRow_eq hw, hth]
    exact ⟨rfl, length_operandBytes r⟩
  · rw [exec_request hi]
    exact request_refused tag .badHandle (by decide) hl ha hf fun u htitles _ _ _ _ =>
      handle_badHandle hu (State.title_none (by rw [htitles]; exact hth))

end Sys2Proof.Settled
end

section
/-! SUPPORT. R185: an owner that refuses its request leaves the part as the request found it, request by request; and what the port
then shows. -/

namespace Sys2Proof.Machine

/-- R185: an answer at once that is not OK comes with the part `s` as the request found it. -/
structure KeepsUnlessOk (s : State) (x : Answer × State) : Prop where
  kept : ∀ res, x.1 = .reply res → res.status ≠ .ok → x.2 = s

namespace KeepsUnlessOk

variable {s t : State}

/-- Whatever the answer, nothing has changed. -/
theorem same (a : Answer) : KeepsUnlessOk s (a, s) := ⟨fun _ _ _ => rfl⟩

theorem refused (st : Status) : KeepsUnlessOk s (refuse st s) := same _

theorem accepted {results : List Byte} {flags : ReplyFlags} : KeepsUnlessOk s (accept results t flags) := by
  refine ⟨fun res hres hst => ?_⟩
  cases hres
  exact absurd rfl hst

theorem started {w : Work} : KeepsUnlessOk s (.started w, t) := ⟨nofun⟩

/-- A check that refuses, and then the rest. -/
theorem check {c : Prop} [Decidable c] {st : Status} {x : Answer × State} (h : KeepsUnlessOk s x) :
    KeepsUnlessOk s (if c then refuse st s else x) := by
  split
  · exact refused st
  · exact h

theorem ite {c : Prop} [Decidable c] {x y : Answer × State} (hx : KeepsUnlessOk s x) (hy : KeepsUnlessOk s y) :
    KeepsUnlessOk s (if c then x else y) := by
  split
  · exact hx
  · exact hy

/-! The checks that requests share. -/

theorem withTitle {th : Nat} {k : Title → Answer × State} (h : ∀ x, KeepsUnlessOk s (k x)) :
    KeepsUnlessOk s (withTitle th s k) := by
  unfold Machine.withTitle
  split
  · exact refused _
  · exact h _

theorem withTake {th take : Nat} {k : Take → Answer × State} (h : ∀ x, KeepsUnlessOk s (k x)) :
    KeepsUnlessOk s (withTake th take s k) := by
  unfold Machine.withTake
  split
  · exact refused _
  · exact h _

theorem withChapter {th index : Nat} {k : Chapter → Answer × State} (h : ∀ x, KeepsUnlessOk s (k x)) :
    KeepsUnlessOk s (withChapter th index s k) := by
  unfold Machine.withChapter
  refine check ?_
  split
  · exact refused _
  · exact h _

theorem withHold {p : Port} {th slot generation : Nat} {k : Hold → Answer × State} (h : ∀ x, KeepsUnlessOk s (k x)) :
    KeepsUnlessOk s (withHold p th slot generation s k) := by
  unfold Machine.withHold
  refine check ?_
  split
  · exact refused _
  · exact check (check (h _))

theorem withOpenTitle {th : Nat} {k : Title → Answer × State} (h : ∀ x, KeepsUnlessOk s (k x)) :
    KeepsUnlessOk s (withOpenTitle th s k) := withTitle fun x => check (h x)

theorem titleChange {th : Nat} {k : Title → Answer × State} (h : ∀ x, KeepsUnlessOk s (k x)) :
    KeepsUnlessOk s (titleChange th s k) := withTitle fun x => check (check (h x))

theorem withSegment {th : Nat} {g : Segment} {l : List Segment} {k : Chapter} {e : Answer × State} (h : KeepsUnlessOk s e) :
    KeepsUnlessOk s (withSegment th g l k s e) := withTake fun _ => check (check h)

/-! The requests whose owners look at more than these checks. -/

variable (s)

theorem openTake (th : Nat) : KeepsUnlessOk s (openTake th s) := by
  refine withTitle fun _ => check ?_
  split
  · exact refused _
  · exact refused _
  · exact accepted

theorem discardFirst (p : Port) (th take index : Nat) : KeepsUnlessOk s (discardFirst p th take index s) := by
  refine withTitle fun _ => withTake fun _ => ?_
  split
  · exact refused _
  · exact accepted

theorem discardLast (p : Port) (th take index : Nat) : KeepsUnlessOk s (discardLast p th take index s) := by
  refine withTitle fun _ => ?_
  split
  · exact refused _
  · exact refused _
  · exact withTake fun _ => check (check (check accepted))

theorem discardCommit (p : Port) (th : Nat) : KeepsUnlessOk s (discardCommit p th s) := by
  refine withTitle fun _ => check ?_
  split
  · exact refused _
  · exact refused _
  · exact withTake fun _ => accepted

theorem registerTitle (catalogue : Nat) : KeepsUnlessOk s (registerTitle catalogue s) := by
  refine check ?_
  split
  · exact accepted
  · split
    · exact refused _
    · exact accepted

theorem holdTitle (th : Nat) : KeepsUnlessOk s (holdTitle th s) := by
  refine withTitle fun _ => ?_
  split
  · exact accepted
  · exact accepted
  · exact refused _

theorem releaseTitle (th : Nat) : KeepsUnlessOk s (releaseTitle th s) := by
  refine withTitle fun _ => ?_
  split
  · exact accepted
  · exact accepted
  · exact refused _

/-- R14: a refused FINALIZE-TITLE gives the offending index, and changes nothing. -/
theorem finalizeTitle (th : Nat) : KeepsUnlessOk s (finalizeTitle th s) := by
  refine withTitle fun _ => ite accepted (ite (same _) ?_)
  split
  · exact same _
  · exact ite (same _) accepted

theorem defineChapter (th index : Nat) : KeepsUnlessOk s (defineChapter th index s) := by
  refine withOpenTitle fun _ => check ?_
  split
  · exact refused _
  · exact accepted

theorem replaceSegment (th index position : Nat) (g : Segment) : KeepsUnlessOk s (replaceSegment th index position g s) := by
  refine withOpenTitle fun _ => withChapter fun _ => ?_
  split
  · exact refused _
  · exact withSegment accepted

theorem removeSegment (th index position : Nat) : KeepsUnlessOk s (removeSegment th index position s) := by
  refine withOpenTitle fun _ => withChapter fun _ => ?_
  split
  · exact refused _
  · exact check accepted

theorem queueRender (th index priority : Nat) : KeepsUnlessOk s (queueRender th index priority s) := by
  refine withTitle fun _ => check (withChapter fun _ => ?_)
  split
  · exact refused _
  · exact check (check (check accepted))

theorem setWheel (e0 e1 e2 e3 : Nat) : KeepsUnlessOk s (setWheel e0 e1 e2 e3 s) := by
  unfold Machine.setWheel
  split
  · exact accepted
  · exact refused _

theorem openRead (p : Port) (th index rendition : Nat) : KeepsUnlessOk s (openRead p th index rendition s) := by
  refine withTitle fun _ => withChapter fun _ => check (check ?_)
  split
  · exact refused _
  split
  · exact refused _
  refine check (check (check ?_))
  split
  · exact refused _
  · exact accepted

theorem chapterInfo (th index : Nat) : KeepsUnlessOk s (chapterInfo th index s) := by
  refine withTitle fun _ => check ?_
  split
  · exact accepted
  · exact accepted

theorem popNotice (p : Port) (code : Nat) : KeepsUnlessOk s (popNotice p code s) := by
  refine check ?_
  split
  · exact accepted
  · exact accepted

end KeepsUnlessOk

/-- R185: whatever the request, its owner changes nothing when it refuses. -/
theorem handle_keepsUnlessOk (p : Port) (r : Request) (s : State) : KeepsUnlessOk s (handle p r s) := by
  cases r with
  | openTake => exact .openTake ..
  | writeBlock => exact .withTitle fun _ => .withTake fun _ => .check (.check (.check (.ite (.same _) (.check (.check .started)))))
  | closeTake => exact .withTitle fun _ => .withTake fun _ => .check (.check (.check (.ite .accepted .accepted)))
  | discardFirst => exact .discardFirst ..
  | discardLast => exact .discardLast ..
  | discardCommit => exact .discardCommit ..
  | registerTitle => exact .registerTitle ..
  | setTitleParams => exact .titleChange fun _ => .accepted
  | setProfile => exact .titleChange fun _ => .check .accepted
  | setProfileCount => exact .titleChange fun _ => .check .accepted
  | setRoomTone => exact .titleChange fun _ => .withTake fun _ => .check (.check .accepted)
  | clearRoomTone => exact .titleChange fun _ => .accepted
  | holdTitle => exact .holdTitle ..
  | releaseTitle => exact .releaseTitle ..
  | finalizeTitle => exact .finalizeTitle ..
  | retireTitle => exact .withTitle fun _ => .check (.check .accepted)
  | defineChapter => exact .defineChapter ..
  | deleteChapter => exact .withOpenTitle fun _ => .withChapter fun _ => .check .accepted
  | setChapterPads => exact .withOpenTitle fun _ => .withChapter fun _ => .check .accepted
  | insertSegment => exact .withOpenTitle fun _ => .withChapter fun _ => .check (.check (.withSegment .accepted))
  | replaceSegment => exact .replaceSegment ..
  | removeSegment => exact .removeSegment ..
  | queueRender => exact .queueRender ..
  | cancelRender => exact .withTitle fun _ => .withChapter fun _ => .check .accepted
  | setWheel => exact .setWheel ..
  | setLanes => exact .check .accepted
  | setHoldLimit => exact .accepted
  | openRead => exact .openRead ..
  | readRange => exact .withTitle fun _ => .withHold fun _ => .check (.check .started)
  | closeRead => exact .withTitle fun _ => .withHold fun _ => .accepted
  | titleInfo => exact .withTitle fun _ => .accepted
  | chapterInfo => exact .chapterInfo ..
  | takeInfo => exact .withTitle fun _ => .withTake fun _ => .check .accepted
  | laneInfo => exact .accepted
  | popNotice => exact .popNotice ..
  | setNoticeMask => exact .check .accepted
  | deviceStatus => exact .accepted
  | portReset => exact .accepted

/-! ### What the port shows of a refusal -/

section
variable {s t : State} {p : Port} {tag : Byte}

/-- The reply in the store after the port has answered. -/
theorem State.driveAttn_answer_reply (u : State) (b : Bool) (res : Result) :
    ((u.answer p tag b res).driveAttn.port p).reply =
      some ⟨res.status, tag, { res.flags with discardReset := b }, res.results⟩ := by
  rw [State.port_driveAttn, State.answer, State.port_changePort_same]

/-- R186: whatever the port does with the discard sequence, an owner that replies has its reply put in the store. -/
theorem State.settle_reply (u : State) (r : Request) (b : Bool) (res : Result) :
    ∃ (v : State) (b' : Bool), u.settle p tag r b (.reply res) = v.answer p tag b' res := by
  simp only [State.settle]
  split
  · exact ⟨_, _, rfl⟩
  · exact ⟨_, _, rfl⟩

/-- R72, R185: a refused request of any kind: nothing changes but the port. -/
theorem State.settle_heardOn (r : Request) {res : Result} (k : Nat) (hst : res.status ≠ .ok) :
    ((((s.heardOn p k).interrupt p r).settle p tag r (s.marked p) (.reply res)).driveAttn) =
      s.answered p tag k (s.marked p) res := by
  have hset : (s.heardOn p k).setSequence p .none = ((s.heardOn p k).interrupt p r).setSequence p .none := by
    unfold State.interrupt
    split
    · rfl
    · simp only [State.setSequence, State.changePort_changePort]
  simp only [State.settle, hst, decide_false, Bool.and_false, Bool.false_eq_true, if_false]
  rw [← hset]
  simp only [State.heardOn, State.setSequence, State.answer, State.answered, State.replied, State.changePort_changePort]

/-- R185, R186: what the command of a request comes to: it is turned away, it starts an operation, or its owner replies. -/
theorem takeRequest_cases (s : State) (p : Port) (tag : Byte) (r : Request) :
    (∃ st, s.takeRequest p tag r = s.turnAway p tag st) ∨
    (∃ (w : Work) (u : State), s.takeRequest p tag r = u.execute p tag (s.port p).sequence.isSet w) ∨
    (∃ (res : Result) (u : State), handle p r (s.interrupt p r) = (.reply res, u) ∧
      s.takeRequest p tag r = u.settle p tag r (s.port p).sequence.isSet (.reply res)) := by
  unfold State.takeRequest
  split
  · exact .inl ⟨_, rfl⟩
  split
  · exact .inl ⟨_, rfl⟩
  · rcases hh : handle p r (s.interrupt p r) with ⟨res | w, u⟩
    · exact .inr (.inr ⟨res, u, rfl, rfl⟩)
    · exact .inr (.inl ⟨w, u, rfl⟩)

end

end Sys2Proof.Machine

namespace Sys2Proof.Settled

open Sys2Proof.Machine

/-- Settles O11: a frame that is turned away changes its port alone, and an owner that refuses changes nothing. -/
theorem refusalChangesNothing : Obligations.RefusalChangesNothing := by
  unfold Obligations.RefusalChangesNothing
  intro i p tag r s t rep hi hl ht hstate hrep hst
  rw [exec_request hi, request_taken tag hl] at ht
  cases ht
  have hmarked : ((s.heardOn p (operandLength r)).port p).sequence.isSet = s.marked p := by rw [State.heardOn_sequence, State.marked]
  rcases takeRequest_cases (s.heardOn p (operandLength r)) p tag r with ⟨st, he⟩ | ⟨w, u, he⟩ | ⟨res, u, hh, he⟩
  · rw [he] at hrep ⊢
    rw [State.turnAway, State.driveAttn_answer_reply] at hrep
    cases hrep
    exact State.turnAway_heardOn _ st
  · rw [he, State.port_driveAttn, State.execute, State.port_changePort_same] at hstate
    cases hstate
  · rw [hmarked] at he
    have hres : res.status ≠ .ok := by
      obtain ⟨v, b, hv⟩ := u.settle_reply (p := p) (tag := tag) r (s.marked p) res
      rw [he, hv, State.driveAttn_answer_reply] at hrep
      cases hrep
      exact hst
    have hkept := (handle_keepsUnlessOk p r ((s.heardOn p (operandLength r)).interrupt p r)).kept res (by rw [hh]) hres
    rw [hh] at hkept
    change u = _ at hkept
    rw [he, hkept, State.settle_heardOn r _ hres] at hrep ⊢
    have hstored : some ⟨res.status, tag, { res.flags with discardReset := s.marked p }, res.results⟩ = some rep := by
      rw [← hrep, State.answered, State.replied, State.port_driveAttn, State.port_changePort_same]
    cases hstored
    rfl

end Sys2Proof.Settled
end

section
/-! SUPPORT. R180, R182, R193: what every command but a device reset leaves as it finds it: the queue of commands, the roles, and of the
ports that it does not belong to all but their lists, discard sequences and ATTN outputs. -/

namespace Sys2Proof.Machine

/-- What a port record says but for its lists, its discard sequence and its ATTN output, which events elsewhere can change. -/
def PortRecord.standing (r : PortRecord) : PortRecord :=
  { r with lists := NoticeLists.empty, sequence := .none, attn := false }

/-- From `s` to `t`, no command joins or leaves the queue, no port changes its role, and none but the port `o` changes in what it
has of its own. -/
structure State.Beside (o : Option Port) (s t : State) : Prop where
  pending : t.pending = s.pending
  roles   : ∀ q, (t.port q).role = (s.port q).role
  others  : ∀ q, o ≠ some q → (t.port q).standing = (s.port q).standing

namespace State.Beside

variable {o : Option Port} {s t u : State}

/-- All ports keep what they have of their own. -/
theorem of_standing (hp : t.pending = s.pending) (hq : ∀ q, (t.port q).standing = (s.port q).standing) : Beside o s t :=
  ⟨hp, fun q => (congrArg PortRecord.role (hq q) : (t.port q).standing.role = _), fun q _ => hq q⟩

/-- The ports are not concerned. -/
theorem inside (hp : t.pending = s.pending) (hq : t.ports = s.ports) : Beside o s t :=
  of_standing hp fun q => by rw [State.port, hq, State.port]

theorem refl (s : State) : Beside o s s := inside rfl rfl

theorem trans (h : Beside o s t) (h' : Beside o t u) : Beside o s u :=
  ⟨h'.pending.trans h.pending, fun q => (h'.roles q).trans (h.roles q), fun q hq => (h'.others q hq).trans (h.others q hq)⟩

/-- The ports are not concerned in what comes before or after. -/
theorem before (h : Beside o t u) (hp : t.pending = s.pending) (hq : t.ports = s.ports) : Beside o s u := (inside hp hq).trans h

theorem after (h : Beside o s t) (hp : u.pending = t.pending) (hq : u.ports = t.ports) : Beside o s u := h.trans (inside hp hq)

/-- An event that every port hears. -/
theorem hears (f : NoticeLists → NoticeLists) (hp : t.pending = s.pending) (hq : t.ports = s.ports.notify f) : Beside o s t :=
  of_standing hp fun q => by rw [State.port, hq, Ports.get_notify]; rfl

/-- R72: marks end. -/
theorem dropMarks {id : Nat} (hp : t.pending = s.pending) (hq : t.ports = s.ports.dropMarks id) : Beside o s t :=
  of_standing hp fun q => by rw [State.port, hq, Ports.get_dropMarks]; rfl

/-- One port changes, but not in what it has of its own. -/
theorem marks (s : State) (p : Port) {f : PortRecord → PortRecord} (hf : ∀ r, (f r).standing = r.standing) :
    Beside o s (s.changePort p f) := by
  refine of_standing rfl fun q => ?_
  by_cases hq : q = p
  · rw [hq, State.port_changePort_same]; exact hf _
  · rw [State.port_changePort_other _ _ hq]

theorem setSequence (s : State) (p : Port) (d : DiscardSeq) : Beside o s (s.setSequence p d) := marks s p fun _ => rfl

/-- The port itself changes, but for its role. -/
theorem own (s : State) (p : Port) {f : PortRecord → PortRecord} (hf : ∀ r, (f r).role = r.role) :
    Beside (some p) s (s.changePort p f) := by
  refine ⟨rfl, fun q => ?_, fun q hq => ?_⟩
  · by_cases hq : q = p
    · rw [hq, State.port_changePort_same]; exact hf _
    · rw [State.port_changePort_other _ _ hq]
  · rw [State.port_changePort_other _ _ fun he => hq (congrArg some he.symm)]

/-! ### How renders and holds end -/

section
variable (s)

theorem endLane (i : Fin 4) (mark : Render → LastEnd) : Beside o s (s.endLane i mark) := by
  unfold State.endLane
  split
  · exact refl s
  · next r _ => exact hears (.postCrossings r.chapter (endedRestores r.stage.encoders)) rfl rfl

theorem endRender (c : ChapterId) (way : EndWay) : Beside o s (s.endRender c way) := by
  unfold State.endRender
  split
  · exact refl s
  · exact endLane ..

theorem failRender (i : Fin 4) (cause : FailCause) (group position : Option Nat) :
    Beside o s (s.failRender i cause group position) := by
  unfold State.failRender
  split
  · exact refl s
  · next r _ => exact (endLane s i (Render.failedEnd cause group position)).trans (hears (.postFailed · r.chapter cause) rfl rfl)

theorem commit (i : Fin 4) : Beside o s (s.commit i) := by
  unfold State.commit
  split
  · exact refl s
  · next r _ => exact hears (.postDone · r.chapter (s.commitSerial r.chapter)) rfl rfl

theorem endHold (slot : Nat) : Beside o s (s.endHold slot) := by
  have hdrop : Beside o s (s.withoutHold slot) := inside rfl rfl
  rcases endHold_cases s slot with he | he | ⟨i, _, _, _, he⟩
  · rw [he]; exact refl s
  · rw [he]; exact hdrop
  · rw [he]; exact hdrop.trans (commit _ i)

theorem expireHold : Beside o s s.expireHold := by
  unfold State.expireHold
  split
  · exact refl s
  · next slot h _ =>
    have hpost : Beside o s (s.changePort h.owner fun r => { r with
      lists := r.lists.postExpired slot (s.holdTable.generation slot) h.chapter h.rendition }) := marks s _ fun _ => rfl
    exact hpost.trans (endHold _ slot)

/-- R189: the port itself empties its mask. -/
theorem resetPort (p : Port) : Beside (some p) s (s.resetPort p) :=
  foldl_keeps (P := Beside (some p) s) (fun u slot h => h.trans (endHold u slot)) _
    (own s p (f := fun r => { r with lists := .empty, mask := .empty, sequence := .none }) fun _ => rfl)

theorem blockFailed (take : Nat) (t : Take) (block g : Nat) : Beside o s (s.blockFailed take t block g) := by
  unfold State.blockFailed
  dsimp only
  split
  · exact dropMarks (id := take) rfl rfl
  · split <;> exact inside rfl rfl

/-! ### What requests do -/

theorem unqueue (c : ChapterId) (k : Chapter) (way : EndWay) : Beside o s (s.unqueue c k way) := by
  unfold State.unqueue
  dsimp only
  split
  · split
    · exact inside rfl rfl
    · exact (endRender s c way).after rfl rfl
  · exact refl s

theorem editChapter (c : ChapterId) (k : Chapter) : Beside o s (s.editChapter c k) := by
  unfold State.editChapter
  dsimp only
  split
  · have hend : ∀ k', Beside o s ((s.setChapter c k').endRender c .aborted) := fun k' =>
      (endRender (s.setChapter c k') c .aborted).before rfl rfl
    exact (hend _).after rfl rfl
  · exact inside rfl rfl

theorem retireTakes (th : Nat) : Beside o s (s.retireTakes th) := by
  refine State.Beside.trans (t := (s.titleTakes th).foldl State.retireTake s) ?_ (hears (.removeNaming · (ofTitle th)) rfl rfl)
  exact foldl_keeps (P := Beside o s)
    (fun u (e : Nat × Take) h => h.trans (dropMarks (t := u.retireTake e) (id := e.1) rfl rfl)) _ (refl s)

theorem retire (th : Nat) (t : Title) : Beside o s (s.retire th t) := by
  have htakes : Beside o s ((s.retirePlan th t).retireTakes th) := (retireTakes (s.retirePlan th t) th).before rfl rfl
  exact htakes.after rfl rfl

theorem commitDiscard (p : Port) (take first last : Nat) : Beside o s (s.commitDiscard p take first last) := by
  have hs : Beside o s ((s.setTakeMem (s.takeMem.discardRun take first last)).setSequence p .none) :=
    (setSequence (s.setTakeMem (s.takeMem.discardRun take first last)) p .none).before rfl rfl
  unfold State.commitDiscard
  dsimp only
  split
  · exact hs.trans (dropMarks (id := take) rfl rfl)
  · exact hs

variable {s}

theorem change {p : Port} (hc : Change p s t) : Beside (some p) s t := by
  cases hc with
  | retired th t => exact retire s th t
  | deleted th index t k =>
    exact (unqueue s ⟨th, index⟩ k .deleted).trans (hears (.removeNaming · (decide <| · = ⟨th, index⟩)) rfl rfl)
  | edited th index t k k' up dn => exact (editChapter (s.setTakeMem ((s.takeMem.raise up).lower dn)) ⟨th, index⟩ k').before rfl rfl
  | cancelled th index t k => exact (unqueue s ⟨th, index⟩ k .cancelled).after rfl rfl
  | closed slot => exact endHold s slot
  | popped => exact marks s p fun _ => rfl
  | masked => exact own s p fun _ => rfl
  | portReset => exact resetPort s p
  | takeFreed id t => exact dropMarks (id := id) rfl rfl
  | sequence d => exact setSequence s p d
  | discarded take first last => exact commitDiscard s p take first last
  | _ => exact inside rfl rfl

/-! ### Dispatch, and the slots of the wheel -/

variable (s)

theorem dispatchOne : Beside o s s.dispatchOne := by
  have hto : ∀ i c origin q, Beside o s (s.dispatchTo i c origin q) := fun i c origin q => by
    unfold State.dispatchTo
    split <;> exact inside rfl rfl
  unfold State.dispatchOne
  split
  · exact refl s
  · split
    · exact hto ..
    · exact hto ..
    · exact refl s

variable (i : Fin 4) (r : Render)

theorem failRead (g : Nat) : Beside o s (s.failRead i r g) :=
  (failRender { s with takeMem := s.takeMem.markFaulted g } ..).before rfl rfl

theorem measured (held : Option HeldBlock) (m : Meter) : Beside o s (s.measured i r held m) := by
  unfold State.measured
  split <;> exact inside rfl rfl

theorem askCommit (gain : GainRecord) (saturated : Nat) (es : List Encoder) : Beside o s (s.askCommit i r gain saturated es) := by
  unfold State.askCommit
  split
  · exact inside rfl rfl
  · exact (commit (s.setRender i _) i).before rfl rfl

theorem endEncode (gain : GainRecord) (saturated : Nat) (es : List Encoder) : Beside o s (s.endEncode i r gain saturated es) := by
  unfold State.endEncode
  have hpost : ∀ xs m, Beside o s { s with ports := s.ports.notify (.postCrossings r.chapter xs), rendMem := m } :=
    fun xs m => hears (.postCrossings r.chapter xs) rfl rfl
  exact (hpost _ _).trans (askCommit ..)

theorem takeFrame (held : Option HeldBlock) (gain : GainRecord) (saturated : Nat) (es : List Encoder) (pool : List Nat)
    (voiced : Bool) (ys : List Int) : Beside o s (s.takeFrame i r held gain saturated es pool voiced ys) := by
  unfold State.takeFrame
  dsimp only
  have hpost : ∀ xs m, Beside o s { s with ports := s.ports.notify (.postCrossings r.chapter xs), rendMem := m } :=
    fun xs m => hears (.postCrossings r.chapter xs) rfl rfl
  split
  · exact (hpost _ _).trans (endEncode ..)
  · exact (hpost _ s.rendMem).after rfl rfl

theorem encoded (a : Assembly) (held : Option HeldBlock) (gain : GainRecord) (saturated : Nat) (es : List Encoder)
    (xs : List Int) : Beside o s (s.encoded i r a held gain saturated es xs) := by
  unfold State.encoded
  dsimp only
  split
  · exact takeFrame ..
  · exact (failRender (State.setRender { s with rendMem := { s.rendMem with pool := _ } } i _) ..).before rfl rfl

variable {s i r} {f : Option Nat}

theorem progress (ht : s.progress i r f = some t) : Beside o s t := by
  unfold State.progress at ht
  split at ht
  · split at ht
    · cases ht
    · cases ht; exact failRead ..
    · cases ht; exact measured ..
  · split at ht
    · cases ht
    · cases ht; exact failRead ..
    · cases ht; exact encoded ..
  · cases ht; exact refl s

theorem grantSlot (ht : s.grantSlot f = some t) : Beside o s t := by
  unfold State.grantSlot at ht
  split at ht
  · cases ht; exact refl s
  · split at ht
    · cases ht; exact refl s
    · split at ht
      · exact progress ht
      · cases ht; exact refl s

end

/-! ### Transactions and operations -/

section
variable {p : Port} {tag : Byte}

theorem answer (b : Bool) (res : Result) : Beside (some p) s (s.answer p tag b res) := own s p fun _ => rfl

theorem turnAway (st : Status) : Beside (some p) s (s.turnAway p tag st) := (setSequence s p .none).trans (answer ..)

theorem settle (r : Request) (b : Bool) (a : Answer) : Beside (some p) s (s.settle p tag r b a) := by
  unfold State.settle
  split
  · exact own s p fun _ => rfl
  · split
    · exact answer ..
    · exact (setSequence s p .none).trans (answer ..)

theorem interrupt (r : Request) : Beside (some p) s (s.interrupt p r) := by
  unfold State.interrupt
  split
  · exact refl s
  · exact marks s p fun _ => rfl

theorem takeRequest (r : Request) : Beside (some p) s (s.takeRequest p tag r) := by
  unfold State.takeRequest
  split
  · exact turnAway _
  split
  · exact turnAway _
  · exact ((interrupt r).trans (change (handle_change p r _))).trans (settle r _ _)

theorem takeBytes (bs : List Byte) : Beside (some p) s (s.takeBytes p bs) := by
  unfold State.takeBytes
  split
  · exact refl s
  · exact turnAway _
  · exact takeRequest _

/-- R183, R184: `take` is what the bytes of the transaction do. -/
theorem endSpan (n : Nat) {take : State → State} (ht : ∀ u, Beside (some p) u (take u)) :
    Beside (some p) s (s.endSpan p n take) := by
  have hclose : Beside (some p) s (s.closeSpan p n) := own s p fun _ => rfl
  unfold State.endSpan
  split
  · exact hclose.trans (ht _)
  · split
    · exact hclose.trans (own _ p fun _ => rfl)
    · exact hclose
  all_goals exact hclose

theorem completeOp (op : Operation) (res : Result) : Beside (some p) s (s.completeOp p op res) := by
  have hend : Beside (some p) s (s.changePort p fun r => { r with operation := none }) := own s p fun _ => rfl
  unfold State.completeOp
  split
  · exact own s p fun _ => rfl
  · exact hend.trans (answer ..)

theorem programDone : Beside (some p) s (s.programDone p) := by
  unfold State.programDone
  split
  · exact refl s
  split
  · exact refl s
  split
  · exact refl s
  · next take block data _ _ t _ =>
    exact (completeOp (s := s.setTakeMem (s.takeMem.blockDone take t block data)) _ _).before rfl rfl

theorem programFailed : Beside (some p) s (s.programFailed p) := by
  unfold State.programFailed
  split
  · exact refl s
  split
  · exact refl s
  split
  · exact refl s
  split
  · exact refl s
  · exact (blockFailed ..).trans (completeOp _ _)

theorem fetchDone : Beside (some p) s (s.fetchDone p) := by
  unfold State.fetchDone
  split
  · exact refl s
  split
  · exact refl s
  next slot _ _ =>
  have hfetch : Beside (some p) s (s.endFetch slot) := inside rfl rfl
  split
  · exact (hfetch.trans (endHold _ slot)).trans (completeOp _ _)
  · exact hfetch.trans (completeOp _ _)

end

/-! ### Every command -/

/-- R177: every meaning ends with the ATTN outputs driven. -/
theorem finish (h : Beside o s u) (ht : Machine.finish u = .next t) : Beside o s t := by
  cases ht
  exact h.trans (of_standing rfl fun q => by rw [State.port_driveAttn]; rfl)

theorem event {f : State → State} (h : Beside o s (f s)) (ht : Machine.event f s = .next t) : Beside o s t := by
  unfold Machine.event at ht
  refine finish ?_ ht
  split
  · exact refl s
  · exact h

theorem request {p : Port} {tag : Byte} {r : Request} (ht : Machine.request p tag r s = .next t) : Beside (some p) s t :=
  finish (endSpan _ fun _ => takeRequest r) ht

/-- Every command that is no device reset. -/
theorem exec {i : Instr} (hi : resetsDevice i = false) (ht : Machine.exec i s = .next t) : Beside (portOf i) s t := by
  cases i with
  | deviceReset | resetPinAsserted => cases hi
  | transaction p rx x => exact finish (endSpan _ fun _ => takeBytes _) ht
  | transactionBegin p => exact finish (own s p (f := fun r => { r with span := some (s.spanOf p) }) fun _ => rfl) ht
  | portResetLine p =>
    refine finish ?_ ht
    split
    · exact own s p fun _ => rfl
    · exact (own s p (f := PortRecord.cutOff p) fun _ => rfl).trans (resetPort _ p)
  | portResetLineRelease p => exact finish (own s p (f := fun r => { r with resetLine := false }) fun _ => rfl) ht
  | programCompletion p => exact event (f := fun s => s.programDone p) programDone ht
  | programFault p => exact event (f := fun s => s.programFailed p) programFailed ht
  | fetchCompletion p => exact event (f := fun s => s.fetchDone p) fetchDone ht
  | eraseStart => exact event (f := fun s => s.setTakeMem s.takeMem.eraseStart) (inside rfl rfl) ht
  | eraseCompletion => exact event (f := fun s => s.setTakeMem s.takeMem.eraseDone) (inside rfl rfl) ht
  | eraseFault => exact event (f := fun s => s.setTakeMem s.takeMem.eraseFailed) (inside rfl rfl) ht
  | dispatch => exact event (dispatchOne s) ht
  | wheelSlot f =>
    simp only [Machine.exec, execWheelSlot] at ht
    split at ht
    · exact finish (refl s) ht
    · split at ht
      · cases ht
      · next u hu => exact finish (u := u.advanceWheel) ((grantSlot hu).trans (inside rfl rfl)) ht
  | holdClockStep => exact event (f := fun s => { s with holdTable := s.holdTable.clockStep }) (inside rfl rfl) ht
  | holdExpiry => exact event (expireHold s) ht
  | _ => exact request ht

end State.Beside

/-- Every command answers a next state, but for a slot of the wheel with a lane read that names no owned group. -/
theorem exec_completes (i : Instr) (s : State) :
    (∃ t, exec i s = .next t) ∨ (∃ f, i = .wheelSlot f ∧ exec i s = .fault .strayLaneRead) := by
  cases i with
  | wheelSlot f =>
    simp only [exec, execWheelSlot]
    split
    · exact .inl ⟨_, rfl⟩
    · split
      · exact .inr ⟨f, rfl, rfl⟩
      · exact .inl ⟨_, rfl⟩
  | _ => exact .inl ⟨_, rfl⟩

/-- R191: neither the beginning nor the end of a device reset touches the queue of commands. -/
theorem exec_pending {i : Instr} {s t : State} (ht : exec i s = .next t) : t.pending = s.pending := by
  by_cases hi : resetsDevice i = false
  · exact (State.Beside.exec hi ht).pending
  · cases i with
    | deviceReset | resetPinAsserted => cases ht; rfl
    | _ => exact absurd rfl hi

/-- R180: the beginning of a device reset changes no role. -/
theorem exec_role {i : Instr} {s t : State} (hi : ∀ c sa sb sc, i ≠ .deviceReset c sa sb sc) (ht : exec i s = .next t) (q : Port) :
    (t.port q).role = (s.port q).role := by
  by_cases hr : resetsDevice i = false
  · exact (State.Beside.exec hr ht).roles q
  · cases i with
    | deviceReset c sa sb sc => exact absurd rfl (hi c sa sb sc)
    | resetPinAsserted => cases ht; cases q <;> rfl
    | _ => exact absurd rfl hr

end Sys2Proof.Machine

namespace Sys2Proof.Settled

open Sys2Proof.Machine

/-- Settles O2: every meaning ends with a next state but that of a wheel slot, and none of them touches the queue. -/
theorem everyCommandCompletes : Obligations.EveryCommandCompletes := by
  unfold Obligations.EveryCommandCompletes
  exact fun i s => (exec_completes i s).imp_left fun ⟨t, ht⟩ => ⟨t, ht, exec_pending ht⟩

/-- Settles O12: what a command does elsewhere reaches a port in its lists, its discard sequence and its ATTN output alone. -/
theorem portsIndependent : Obligations.PortsIndependent := by
  unfold Obligations.PortsIndependent
  refine ⟨fun i q s t hq hr ht => ?_, fun i q s t hi ht => exec_role hi ht q⟩
  have h := (State.Beside.exec hr ht).others q hq
  simp only [PortRecord.standing, PortRecord.mk.injEq] at h
  obtain ⟨hrole, hstate, hreply, hop, hmark, -, hmask, -, -, hline, hspan, hsent, -⟩ := h
  exact ⟨hrole, hstate, hreply, hop, hmark, hmask, hline, hspan, hsent⟩

end Sys2Proof.Settled
end

section
/-! SUPPORT. R191: what a device reset leaves while it is held and when it ends, and that the part after one has all the laws. -/

namespace Sys2Proof.Machine

/-! ### While a device reset is held -/

/-- R183, R191: the end of a transaction that is lost to a device reset. -/
theorem State.endSpan_lost {s : State} {p : Port} {before : List Byte} (h : s.spanOf p = .lost before) (n : Nat)
    (take : State → State) :
    s.endSpan p n take = s.changePort p (fun q => { q with
      span := none, sent := (before ++ (List.range n).map (Config.lostByte p q.cuts)).take n, cuts := q.cuts + 1 }) := by
  rw [State.endSpan, h]
  simp only [State.closeSpan, h]
  rfl

/-- R191: no command of the units inside the part does anything while a device reset is held. -/
theorem exec_held {i : Instr} {s : State} (hi : i.request? = none) (hp : portOf i = none) (hr : resetsDevice i = false)
    (h : s.resetHeld ≠ none) : exec i s = .next s.driveAttn := by
  cases i with
  | eraseStart | eraseCompletion | eraseFault | dispatch | holdClockStep | holdExpiry =>
    simp only [exec, execEraseStart, execEraseCompletion, execEraseFault, execDispatch, execHoldClockStep, execHoldExpiry,
      event_held h]
  | wheelSlot f => exact if_pos (Option.isSome_iff_ne_none.2 h)
  | deviceReset | resetPinAsserted => cases hr
  | transaction | transactionBegin | portResetLine | portResetLineRelease | programCompletion | programFault | fetchCompletion =>
    cases hp
  | _ => cases hi

/-- R191: neither does the end of an operation. -/
theorem exec_operation_held {s : State} (h : s.resetHeld ≠ none) (p : Port) :
    exec (.programCompletion p) s = .next s.driveAttn ∧ exec (.programFault p) s = .next s.driveAttn ∧
    exec (.fetchCompletion p) s = .next s.driveAttn := by
  simp only [exec, execProgramCompletion, execProgramFault, execFetchCompletion, event_held h, and_self]

/-- R47, R168, R191: what the beginning of a device reset makes of a port. -/
def PortRecord.offline (p : Port) (q : PortRecord) : PortRecord :=
  { q with
    span := spanUnderReset p q, cuts := q.cuts + 1, state := .idle, reply := none, operation := none, discardMark := false,
    attn := false }

theorem PortRecord.abandon_eq (p : Port) (q : PortRecord) : { q.abandon p with attn := false } = q.offline p := by
  rw [PortRecord.offline, ← PortRecord.cutSpan_lose]
  rfl

/-- R191: the beginning of a device reset. -/
theorem exec_resetPinAsserted (cause : ResetCause) (s : State) : exec (.resetPinAsserted cause) s = .next { s with
    ports := ⟨(s.port .a).offline .a, (s.port .b).offline .b, (s.port .c).offline .c⟩,
    takeMem := { s.takeMem with takes := s.takeMem.takes.map (fun e => (e.1, { e.2 with inFlight := none })) },
    holdTable := { s.holdTable with holds := s.holdTable.holds.map (fun e => (e.1, { e.2 with read := none })) },
    resetHeld := some (joinCause s.resetHeld cause) } := by
  simp only [← PortRecord.abandon_eq]
  rfl

/-! ### When it ends -/

/-- R180, R191: a port when a device reset has ended. -/
theorem State.restart_port (s : State) (cause : ResetCause) (ra rb rc : Role) (p : Port) :
    (s.restart cause ra rb rc).driveAttn.port p = (s.port p).restart p (match p with | .a => ra | .b => rb | .c => rc) := by
  cases p <;> rfl

/-! ### The laws at reset -/

theorem reset_attnLaw : State.reset.AttnLaw := fun p => match p with
  | .a | .b | .c => rfl

theorem reset_portLaw : State.reset.PortLaw := fun p => match p with
  | .a | .b | .c => .idle rfl rfl rfl rfl nofun nofun

theorem reset_noticeLaw : State.reset.NoticeLaw := fun p => match p with
  | .a | .b | .c => .empty

/-- R41, R42: every group is dirty. -/
theorem reset_groupLaw : State.reset.GroupLaw := TakeMemory.grouped_atReset

/-- R76, R83: no chapter waits for a lane or is in one. -/
theorem reset_renderLaw : State.reset.RenderLaw :=
  ⟨rfl, .nil, fun _ hc => absurd hc List.not_mem_nil, fun _ _ _ hk => (nomatch hk), fun _ hc => absurd hc List.not_mem_nil,
    fun _ _ _ _ hk => (nomatch hk), rfl, Nat.zero_le _⟩

/-- R64: no count, no span, and no operation: what the end of any device reset leaves. -/
theorem reset_accounted : State.reset.Accounted := by
  have hnone : ∀ q, (State.reset.port q).operation = none := fun q => by cases q <;> rfl
  refine ⟨⟨fun q o _ _ _ ho => ?_, fun q _ o _ _ _ _ _ _ ho => ?_⟩,
    (State.accounted_restart .reset .powerOn .full .full .full).counted⟩
  · cases (hnone q).symm.trans ho
  · cases (hnone q).symm.trans ho

end Sys2Proof.Machine

namespace Sys2Proof.Settled

open Sys2Proof.Machine

/-- Settles O34: a device reset cuts off every transaction and operation when it begins, and nothing happens while it is held. -/
theorem deviceResetHeld : Obligations.DeviceResetHeld := by
  unfold Obligations.DeviceResetHeld
  refine ⟨fun cause s => exec_resetPinAsserted cause s, fun i s => exec_held, fun p s h => exec_operation_held h p,
    fun p rx x before s hsp => ?_, fun cause sa sb sc s => ⟨_, rfl, fun p => ?_⟩⟩
  · have hspan : s.spanOf p = .lost before := by
      rcases hsp with hsp | ⟨rfl, hsp, hline, hheld⟩
      · rw [State.spanOf, hsp, Option.getD_some]
      · rw [State.spanOf, hsp, Option.getD_none, State.spanNow, hline, if_neg (by decide),
          if_pos (Option.isSome_iff_ne_none.2 hheld)]
    refine ⟨(List.range rx.length).map (Config.lostByte p (s.port p).cuts), by simp, ?_⟩
    exact congrArg finish ((State.endSpan_lost hspan _ _).trans (State.changePort_congr rfl))
  · rw [State.restart_port]
    exact ⟨rfl, PortRecord.cutSpan_lose p (s.port p)⟩

/-- Settles O3: the part restarts in the state of reset, whatever it held; what outlives the reset is no block's. -/
theorem deviceResetValues : Obligations.DeviceResetValues := by
  unfold Obligations.DeviceResetValues
  refine ⟨fun c => by cases c <;> decide, fun cause sa sb sc s => ⟨_, rfl, rfl, rfl, rfl, List.range_eq_range'.symm,
    rfl, rfl, rfl, rfl, rfl, rfl, rfl, rfl, List.range_eq_range'.symm, rfl, rfl, rfl, rfl, rfl, fun p => ?_⟩⟩
  cases p <;> exact ⟨rfl, rfl, rfl, rfl, rfl, rfl, rfl, rfl, rfl⟩

/-- Settles O60: no block holds anything after a reset, but that all groups are dirty and all pages are in the pool. -/
theorem resetHasLaws : Obligations.ResetHasLaws := by
  unfold Obligations.ResetHasLaws
  obtain ⟨hspans, hcounts⟩ := State.counted_iff.1 reset_accounted.counted
  exact ⟨reset_attnLaw, reset_portLaw, ⟨rfl, rfl⟩, ⟨rfl, rfl, rfl, rfl, rfl⟩, reset_groupLaw,
    State.PageLaw.restart .reset .powerOn .full .full .full, reset_noticeLaw, reset_renderLaw,
    reset_groupLaw.mapped_iff.1 TakeMemory.mapped_atReset, reset_accounted.programs, hspans, hcounts,
    ⟨fun _ _ hk => (nomatch hk), fun _ _ hset => (nomatch hset)⟩, fun _ he => (nomatch he)⟩

end Sys2Proof.Settled
end

section
/-! SUPPORT. R152, R162, R168: the ends of several holds one after the other: what they leave, the commits that they take, and that they
take each commit that waited for them alone. -/

namespace Sys2Proof.Machine

/-- R168: the holds in some slots end one after the other. -/
def State.endHolds (s : State) (slots : List Nat) : State := slots.foldl State.endHold s

/-! ### What they leave -/

/-- What the ends of holds leave of the part, whatever commits they take: these blocks, and of each port all but its DONE list. -/
structure State.SameButHolds (s t : State) : Prop where
  titles    : t.titles = s.titles
  takeMem   : t.takeMem = s.takeMem
  wheel     : t.wheel = s.wheel
  cause     : t.cause = s.cause
  resetHeld : t.resetHeld = s.resetHeld
  ports     : ∃ g : List DoneEntry → List DoneEntry, t.ports = s.ports.notify (fun l => { l with done := g l.done })

namespace State.SameButHolds

variable {s t u : State}

theorem refl (s : State) : SameButHolds s s := ⟨rfl, rfl, rfl, rfl, rfl, id, rfl⟩

theorem trans (h : SameButHolds s t) (h' : SameButHolds t u) : SameButHolds s u := by
  obtain ⟨h1, h2, h3, h4, h5, g, hg⟩ := h
  obtain ⟨h1', h2', h3', h4', h5', g', hg'⟩ := h'
  exact ⟨h1'.trans h1, h2'.trans h2, h3'.trans h3, h4'.trans h4, h5'.trans h5, fun l => g' (g l), by rw [hg', hg]; rfl⟩

theorem commit (s : State) (i : Fin 4) : SameButHolds s (s.commit i) := by
  unfold State.commit
  split
  · exact refl s
  · next r _ => exact ⟨rfl, rfl, rfl, rfl, rfl,
      upsert (fun e => decide (e.chapter = r.chapter)) { chapter := r.chapter, serial := s.commitSerial r.chapter }, rfl⟩

theorem endHold (s : State) (slot : Nat) : SameButHolds s (s.endHold slot) := by
  have hdrop : SameButHolds s (s.withoutHold slot) := ⟨rfl, rfl, rfl, rfl, rfl, id, rfl⟩
  rcases endHold_cases s slot with he | he | ⟨i, _, _, _, he⟩
  · rw [he]; exact refl s
  · rw [he]; exact hdrop
  · rw [he]; exact hdrop.trans (commit _ i)

theorem endHolds (s : State) (slots : List Nat) : SameButHolds s (s.endHolds slots) :=
  foldl_keeps (P := SameButHolds s) (fun t slot h => h.trans (endHold t slot)) slots (refl s)

/-- R176 to R178: a port keeps its mask, its discard sequence and four of its lists. -/
theorem port (h : SameButHolds s t) (q : Port) : ∃ done,
    t.port q = { s.port q with lists := { (s.port q).lists with done := done } } := by
  obtain ⟨-, -, -, -, -, g, hg⟩ := h
  exact ⟨g (s.port q).lists.done, by rw [State.port, hg, Ports.get_notify]; rfl⟩

end State.SameButHolds

/-- R162: the ends of holds do to the ports no more than join DONE entries, whatever else they hold. -/
theorem State.endHolds_ports (s : State) (slots : List Nat) :
    ∃ f, ∀ q : Ports, State.endHolds { s with ports := q } slots = { s.endHolds slots with ports := q.notify f } := by
  induction slots generalizing s with
  | nil => exact ⟨id, fun _ => rfl⟩
  | cons slot slots ih =>
    obtain ⟨f, hf⟩ := s.endHold_ports slot
    obtain ⟨g, hg⟩ := ih (s.endHold slot)
    refine ⟨fun l => g (f l), fun q => ?_⟩
    calc State.endHolds { s with ports := q } (slot :: slots)
        = State.endHolds { s.endHold slot with ports := q.notify f } slots := congrArg (State.endHolds · slots) (hf q)
      _ = _ := hg (q.notify f)

/-! ### What the end of a hold releases, and the hold table -/

theorem State.commit_holdTable (s : State) (i : Fin 4) : (s.commit i).holdTable = s.holdTable := by
  unfold State.commit
  split <;> rfl

/-- R152, R162: what the end of a hold releases: nothing, or the commit of the chapter, which waits in a lane. -/
theorem State.releaseCommit_cases (s : State) (d : ChapterId) : s.releaseCommit d = s ∨
    ∃ k j r, s.chapter? d = some k ∧ k.state = .commitWait ∧ s.laneOf d = some j ∧ (s.lanes.get j).render = some r ∧
      r.chapter = d ∧ s.releaseCommit d = s.commit j := by
  unfold State.releaseCommit
  split
  · exact .inl rfl
  split
  · next k j hk hj =>
    split
    · next hst =>
      obtain ⟨r, hr, hc⟩ := State.laneOf_render hj
      exact .inr ⟨k, j, r, hk, hst, hj, hr, hc, rfl⟩
    · exact .inl rfl
  · exact .inl rfl

theorem State.releaseCommit_holdTable (s : State) (d : ChapterId) : (s.releaseCommit d).holdTable = s.holdTable := by
  rcases s.releaseCommit_cases d with he | ⟨_, j, _, -, -, -, -, -, he⟩
  · rw [he]
  · rw [he, s.commit_holdTable]

/-- R162: the end of the hold in a slot, in the words of what is left without it. -/
theorem State.endHold_eq {s : State} (hw : Tab.wf s.holdTable.holds = true) (slot : Nat) :
    (Tab.look s.holdTable.holds slot = none ∧ s.endHold slot = s.withoutHold slot) ∨
    ∃ h, Tab.look s.holdTable.holds slot = some h ∧ s.endHold slot = (s.withoutHold slot).releaseCommit h.chapter := by
  unfold State.endHold
  split
  · next hl => exact .inl ⟨hl, by rw [State.withoutHold, Tab.drop_of_look_none hw hl]⟩
  · next h hl => exact .inr ⟨h, hl, rfl⟩

theorem State.endHold_holdTable {s : State} (hw : Tab.wf s.holdTable.holds = true) (slot : Nat) :
    (s.endHold slot).holdTable = { s.holdTable with holds := Tab.drop s.holdTable.holds slot } := by
  rcases State.endHold_eq hw slot with ⟨-, he⟩ | ⟨h, -, he⟩
  · rw [he]; rfl
  · rw [he, State.releaseCommit_holdTable]; rfl

/-- R168: of the hold table the ends of some holds leave the others. -/
theorem State.endHolds_holdTable {s : State} (hw : Tab.wf s.holdTable.holds = true) (es : List (Nat × Hold)) :
    (s.endHolds (es.map (fun e => e.1))).holdTable =
      { s.holdTable with holds := es.foldl (fun t e => Tab.drop t e.1) s.holdTable.holds } := by
  induction es generalizing s with
  | nil => rfl
  | cons e es ih =>
    have hend := State.endHold_holdTable hw e.1
    rw [List.map_cons, State.endHolds, List.foldl_cons, ← State.endHolds, ih (by rw [hend]; exact Tab.wf_drop _ hw), hend]
    rfl

/-! ### The commits that they take -/

/-- R178: where no chapter waits for a commit, the end of a hold changes the hold table alone. -/
theorem State.endHolds_quiet {s : State} (h : ∀ e ∈ s.chapters, e.2.state ≠ .commitWait) (slots : List Nat) :
    ∃ x, s.endHolds slots = { s with holdTable := x } := by
  refine foldl_keeps (P := fun t => ∃ x, t = { s with holdTable := x }) (fun t slot ⟨x, hx⟩ => ?_) slots ⟨s.holdTable, rfl⟩
  have hend : t.endHold slot = t ∨ t.endHold slot = t.withoutHold slot := by
    unfold State.endHold
    split
    · exact .inl rfl
    · next hold _ =>
      refine .inr ((State.releaseCommit_cases (t.withoutHold slot) hold.chapter).resolve_right ?_)
      rintro ⟨k, _, _, hk, hst, -⟩
      rw [hx] at hk
      exact h _ (Tab.mem_of_look hk) hst
  rcases hend with he | he
  · exact ⟨x, he.trans hx⟩
  · exact ⟨_, he.trans (by rw [hx, State.withoutHold])⟩

/-- R152: chapter `c`, with record `k` and its render in lane `i`, waits for the end of a hold. -/
structure State.CommitPending (c : ChapterId) (k : Chapter) (i : Fin 4) (s : State) : Prop where
  record : s.chapter? c = some k
  lane   : s.laneOf c = some i
  hold   : ∃ e ∈ s.holdTable.holds, e.2.chapter = c

/-- R33, R152: the commit of chapter `c` with serial `n` has been taken in lane `i`. -/
structure State.CommitTaken (c : ChapterId) (i : Fin 4) (n : Nat) (s : State) : Prop where
  lane   : (s.lanes.get i).render = none
  record : ∃ k', s.chapter? c = some k' ∧ k'.state = .done ∧ k'.published = true ∧ k'.stale = false ∧ k'.serial = n

section
variable {s : State} {c d : ChapterId} {k : Chapter} {i j : Fin 4} {r : Render} {n : Nat}

theorem State.commit_chapter? (hr : (s.lanes.get j).render = some r) (c : ChapterId) : (s.commit j).chapter? c =
    if c.key = r.chapter.key then (s.chapter? c).map Chapter.committed else s.chapter? c := by
  simp only [State.commit, hr, State.chapter?, Tab.look_change]

theorem State.commit_lanes (hr : (s.lanes.get j).render = some r) : (s.commit j).lanes = s.lanes.set j ((s.lanes.get j).vacate
    (r.committedEnd (s.commitSerial r.chapter))) := by
  simp only [State.commit, hr]

/-- A lane that gives up another chapter than `c` leaves `c` where it is. -/
theorem State.commit_laneOf_other (hr : (s.lanes.get j).render = some r) (hc : r.chapter ≠ c) :
    (s.commit j).laneOf c = s.laneOf c := by
  rw [State.laneOf, State.commit_lanes hr]
  refine congrArg (fourIndexes.find? ·) (funext fun m => ?_)
  by_cases hm : m = j
  · subst hm
    simp [Lane.vacate, hr, hc]
  · rw [Four.get_set_other _ _ hm]

theorem State.CommitPending.commit_other (h : s.CommitPending c k i) (hr : (s.lanes.get j).render = some r)
    (hc : c.key ≠ r.chapter.key) : (s.commit j).CommitPending c k i where
  record := by rw [State.commit_chapter? hr, if_neg hc, h.record]
  lane := by rw [State.commit_laneOf_other hr fun he => hc (congrArg ChapterId.key he.symm), h.lane]
  hold := by rw [State.commit_holdTable]; exact h.hold

/-- What the end of a hold of another chapter releases leaves a waiting chapter. -/
theorem State.CommitPending.releaseCommit_other (h : s.CommitPending c k i) (hc : c.key ≠ d.key) :
    (s.releaseCommit d).CommitPending c k i := by
  rcases s.releaseCommit_cases d with he | ⟨_, j, r, -, -, -, hr, hrd, he⟩
  · rwa [he]
  · rw [he]
    exact h.commit_other hr (by rwa [hrd])

/-- What the end of any hold releases leaves a chapter that has been committed: it does not wait any more. -/
theorem State.CommitTaken.releaseCommit (h : s.CommitTaken c i n) (d : ChapterId) : (s.releaseCommit d).CommitTaken c i n := by
  obtain ⟨hlane, k', hk', hst, hrest⟩ := h
  rcases s.releaseCommit_cases d with he | ⟨kd, j, r, hkd, hwait, -, hr, hrd, he⟩
  · rw [he]
    exact ⟨hlane, k', hk', hst, hrest⟩
  · have hij : i ≠ j := fun hij => by
      rw [hij, hr] at hlane
      cases hlane
    have hkey : c.key ≠ r.chapter.key := fun hkey => by
      have hlook : s.chapter? c = s.chapter? d := by rw [State.chapter?, hkey, hrd, State.chapter?]
      rw [hlook, hkd, Option.some.injEq] at hk'
      rw [hk', hst] at hwait
      cases hwait
    rw [he]
    refine ⟨?_, k', ?_, hst, hrest⟩
    · rw [State.commit_lanes hr, Four.get_set_other _ _ hij, hlane]
    · rw [State.commit_chapter? hr, if_neg hkey, hk']

/-- R152, R162: a chapter that no hold names any more is committed. -/
theorem State.releaseCommit_taken (hk : s.chapter? c = some k) (hwait : k.state = .commitWait) (hlane : s.laneOf c = some i)
    (hfree : s.held c = false) : (s.releaseCommit c).CommitTaken c i (nextSerial k.serial) := by
  obtain ⟨r, hr, rfl⟩ := State.laneOf_render hlane
  have he : s.releaseCommit r.chapter = s.commit i := by
    simp only [State.releaseCommit, hfree, Bool.false_eq_true, if_false, hk, hlane, hwait, if_true]
  rw [he]
  refine ⟨?_, k.committed, ?_, rfl, rfl, rfl, rfl⟩
  · rw [State.commit_lanes hr, Four.get_set_same]
    rfl
  · rw [State.commit_chapter? hr, if_pos rfl, hk, Option.map_some]

/-- The end of a hold leaves a waiting chapter waiting, or commits it: it does so when the hold was the last of the chapter. -/
theorem State.CommitPending.endHold (h : s.CommitPending c k i) (hwait : k.state = .commitWait) (hc : c.index ≤ 127)
    (hw : Tab.wf s.holdTable.holds = true) (hidx : ∀ e ∈ s.holdTable.holds, e.2.chapter.index ≤ 127) (slot : Nat) :
    (s.endHold slot).CommitPending c k i ∨ (s.endHold slot).CommitTaken c i (nextSerial k.serial) := by
  obtain ⟨hk, hlane, e, he, hec⟩ := h
  rcases State.endHold_eq hw slot with ⟨hl, hend⟩ | ⟨x, hl, hend⟩
  · rw [hend, State.withoutHold, Tab.drop_of_look_none hw hl]
    exact .inl ⟨hk, hlane, e, he, hec⟩
  · rw [hend]
    by_cases hheld : (s.withoutHold slot).held c = true
    · have hpend : (s.withoutHold slot).CommitPending c k i := ⟨hk, hlane, held_iff.1 hheld⟩
      by_cases hx : x.chapter = c
      · rw [hx, State.releaseCommit, if_pos hheld]
        exact .inl hpend
      · exact .inl (hpend.releaseCommit_other fun hkey => hx (ChapterId.key_inj hc (hidx _ (Tab.mem_of_look hl)) hkey).symm)
    · have hslot : e.1 = slot := by
        by_contra hne
        exact hheld (held_iff.2 ⟨e, List.mem_filter.2 ⟨he, decide_eq_true hne⟩, hec⟩)
      have hx : x = e.2 := by
        rw [← hslot, Tab.look_of_mem hw (show (e.1, e.2) ∈ _ from he)] at hl
        exact (Option.some.inj hl).symm
      rw [hx, hec]
      exact .inr (State.releaseCommit_taken hk hwait hlane (Bool.not_eq_true _ ▸ hheld))

theorem State.CommitTaken.endHold (h : s.CommitTaken c i n) (slot : Nat) : (s.endHold slot).CommitTaken c i n := by
  have hrest : (s.withoutHold slot).CommitTaken c i n := ⟨h.lane, h.record⟩
  unfold State.endHold
  split
  · exact h
  · exact hrest.releaseCommit _

/-- R152, R168: a chapter that waits is left waiting or committed by the ends of several holds. -/
theorem State.CommitPending.endHolds (h : s.CommitPending c k i) (hwait : k.state = .commitWait) (hc : c.index ≤ 127)
    (hw : Tab.wf s.holdTable.holds = true) (hidx : ∀ e ∈ s.holdTable.holds, e.2.chapter.index ≤ 127) (slots : List Nat) :
    (s.endHolds slots).CommitPending c k i ∨ (s.endHolds slots).CommitTaken c i (nextSerial k.serial) := by
  induction slots generalizing s with
  | nil => exact .inl h
  | cons slot slots ih =>
    have hend := State.endHold_holdTable hw slot
    rcases h.endHold hwait hc hw hidx slot with hp | ht
    · refine ih hp ?_ ?_
      · rw [hend]; exact Tab.wf_drop _ hw
      · rw [hend]; exact fun e he => hidx e (List.mem_filter.1 he).1
    · exact .inr (foldl_keeps (P := State.CommitTaken c i (nextSerial k.serial)) (fun _ _ h => h.endHold _) slots ht)

end

/-! ### The reset of a port -/

/-- R178, R189: the lists, the mask and the discard sequence of a port are emptied. -/
def State.clearNotices (s : State) (p : Port) : State := s.changePort p (fun q => { q with
  lists := ⟨[], [], [], [], []⟩, mask := ⟨false, false, false, false, false⟩, sequence := .none })

/-- R189: the notices of the port go, and then its holds end. -/
theorem State.resetPort_eq (s : State) (p : Port) :
    s.resetPort p = (s.clearNotices p).endHolds ((s.endsAtReset p).map (fun e => e.1)) := by
  refine congrArg (fun es => (s.clearNotices p).endHolds (List.map (fun e : Nat × Hold => e.1) es)) ?_
  rw [State.endsAtReset, State.holdsOf, List.filter_filter]
  exact List.filter_congr fun e _ => Bool.and_comm ..

/-- The reset of a port does not depend on its transaction, nor do the reply and the end of that transaction on the reset. -/
theorem State.resetPort_heard (s : State) (p : Port) (tag : Byte) (b : Bool) (res : Result) :
    ((((s.heard p 0).resetPort p).setSequence p .none).answer p tag b res).driveAttn = (s.resetPort p).answered p tag 0 b res := by
  obtain ⟨f, hf⟩ := (s.clearNotices p).endHolds_ports ((s.endsAtReset p).map (fun e => e.1))
  have hheard := (State.resetPort_eq (s.heard p 0) p).trans (hf ((s.heard p 0).clearNotices p).ports)
  have hreset := (State.resetPort_eq s p).trans (hf (s.clearNotices p).ports)
  rw [hheard, hreset]
  cases p <;> rfl

section
variable {s : State} {p : Port}

/-- R168: a reset of the port ends its holds with no read in flight, and no others. -/
theorem State.resetPort_holdTable (hw : Tab.wf s.holdTable.holds = true) (p : Port) : (s.resetPort p).holdTable =
    { s.holdTable with holds := s.holdTable.holds.filter (fun e => !(decide (e.2.owner = p) && e.2.read.isNone)) } := by
  rw [State.resetPort_eq, State.endHolds_holdTable (s := s.clearNotices p) hw, ← Tab.foldl_drop_filter hw]
  rfl

/-- R152, R168: a chapter that waits for holds of the port alone is committed by the reset of the port. -/
theorem State.resetPort_taken {c : ChapterId} {k : Chapter} {i : Fin 4} (hw : Tab.wf s.holdTable.holds = true)
    (hpend : s.CommitPending c k i) (hwait : k.state = .commitWait) (hc : c.index ≤ 127)
    (hidx : ∀ e ∈ s.holdTable.holds, e.2.chapter.index ≤ 127)
    (hown : ∀ e ∈ s.holdTable.holds, e.2.chapter = c → e.2.owner = p ∧ e.2.read = none) :
    (s.resetPort p).CommitTaken c i (nextSerial k.serial) := by
  have hcleared : (s.clearNotices p).CommitPending c k i := ⟨hpend.record, hpend.lane, hpend.hold⟩
  have hends := hcleared.endHolds hwait hc hw hidx ((s.endsAtReset p).map (fun e => e.1))
  rw [← State.resetPort_eq] at hends
  refine hends.resolve_left fun hleft => ?_
  obtain ⟨e, he, hec⟩ := hleft.hold
  rw [State.resetPort_holdTable hw] at he
  obtain ⟨he, hends⟩ := List.mem_filter.1 he
  obtain ⟨howner, hread⟩ := hown e he hec
  simp [howner, hread] at hends

/-- R168, R178, R189: what the reset of a port leaves. -/
theorem portResetLeaves_resetPort (hw : Tab.wf s.holdTable.holds = true) (p : Port) : portResetLeaves s (s.resetPort p) p := by
  have hsame : State.SameButHolds (s.clearNotices p) (s.resetPort p) := by
    rw [State.resetPort_eq]
    exact .endHolds ..
  refine ⟨State.resetPort_holdTable hw p, ?_⟩
  obtain ⟨done, hp⟩ := hsame.port p
  rw [State.clearNotices, State.port_changePort_same] at hp
  rw [hp]
  refine ⟨rfl, rfl, rfl, rfl, rfl, rfl, hsame.titles, hsame.takeMem, hsame.wheel, hsame.cause, hsame.resetHeld,
    fun q hq => ?_, fun hquiet => ?_, fun c k i hk hwait hlane hc hidx hhold hown => ?_⟩
  · obtain ⟨done, hq'⟩ := hsame.port q
    rw [State.clearNotices, State.port_changePort_other _ _ hq] at hq'
    rw [hq']
    exact ⟨rfl, rfl, rfl, rfl, rfl, rfl⟩
  · obtain ⟨x, hx⟩ := State.endHolds_quiet (s := s.clearNotices p) hquiet ((s.endsAtReset p).map (fun e => e.1))
    rw [← State.resetPort_eq] at hx
    have hport : ∀ q, (s.resetPort p).port q = (s.clearNotices p).port q := fun q => by rw [hx]; rfl
    refine ⟨?_, fun q hq => ?_, by rw [hx]; rfl, by rw [hx]; rfl, by rw [hx]; rfl, by rw [hx]; rfl⟩
    · rw [← hp, hport, State.clearNotices, State.port_changePort_same]
    · rw [hport, State.clearNotices, State.port_changePort_other _ _ hq]
  · obtain ⟨hnone, hrecord⟩ := State.resetPort_taken (p := p) hw ⟨hk, hlane, hhold⟩ hwait hc hidx hown
    exact ⟨hnone, hrecord⟩

/-- What `portResetLeaves` looks at in a port: its lists, its mask and its discard sequence. -/
def PortRecord.notices (r : PortRecord) : NoticeLists × NoticeMask × DiscardSeq := (r.lists, r.mask, r.sequence)

theorem portResetLeaves_ports {t : State} {q : Ports} (h : portResetLeaves s t p)
    (hq : ∀ o, (q.get o).notices = (t.port o).notices) : portResetLeaves s { t with ports := q } p := by
  have hport : ∀ o, ({ t with ports := q } : State).port o = q.get o := fun _ => rfl
  have hlists : ∀ o, (q.get o).lists = (t.port o).lists := fun o => congrArg (fun x => x.1) (hq o)
  have hmask : ∀ o, (q.get o).mask = (t.port o).mask := fun o => congrArg (fun x => x.2.1) (hq o)
  have hseq : ∀ o, (q.get o).sequence = (t.port o).sequence := fun o => congrArg (fun x => x.2.2) (hq o)
  unfold portResetLeaves
  simp only [hport, hlists, hmask, hseq]
  exact h

theorem portResetLeaves_driveAttn {t : State} (h : portResetLeaves s t p) : portResetLeaves s t.driveAttn p :=
  portResetLeaves_ports h fun o => by rw [Ports.get_map]; rfl

theorem portResetLeaves_changePort {t : State} {f : PortRecord → PortRecord} (h : portResetLeaves s t p)
    (hf : (f (t.port p)).notices = (t.port p).notices) : portResetLeaves s (t.changePort p f) p := by
  have hport : ∀ o, ((t.changePort p f).port o).notices = (t.port o).notices := fun o => by
    by_cases ho : o = p
    · rw [ho, State.port_changePort_same, hf]
    · rw [State.port_changePort_other _ _ ho]
  exact portResetLeaves_ports h hport

/-- The reply to PORT-RESET ends a discard sequence that the reset has ended. -/
theorem portResetLeaves_answered {t : State} (h : portResetLeaves s t p) (tag : Byte) (b : Bool) (res : Result) :
    portResetLeaves s (t.answered p tag 0 b res) p := by
  refine portResetLeaves_driveAttn (portResetLeaves_changePort h ?_)
  obtain ⟨-, -, hseq, -⟩ := h
  rw [PortRecord.notices, PortRecord.notices, hseq]

/-- Of the port before it, what its reset leaves does not depend. -/
theorem portResetLeaves_of_changePort {t : State} {f : PortRecord → PortRecord} (h : portResetLeaves (s.changePort p f) t p) :
    portResetLeaves s t p := by
  obtain ⟨hholds, hmask, hseq, hf, hst, hre, hex, hti, htm, hwh, hca, hrh, hother, hquiet, htaken⟩ := h
  refine ⟨hholds, hmask, hseq, hf, hst, hre, hex, hti, htm, hwh, hca, hrh, fun o ho => ?_, fun hnone => ?_, htaken⟩
  · rw [← State.port_changePort_other s f ho]
    exact hother o ho
  · obtain ⟨hdone, hlist, hrest⟩ := hquiet hnone
    refine ⟨hdone, fun o ho => ?_, hrest⟩
    rw [← State.port_changePort_other s f ho]
    exact hlist o ho

end

/-! ### The commands -/

/-- What the reset of a port leaves of that port: its link and its operation. -/
theorem State.resetPort_kept (s : State) (p : Port) :
    ((s.resetPort p).port p).role = (s.port p).role ∧ ((s.resetPort p).port p).state = (s.port p).state ∧
    ((s.resetPort p).port p).reply = (s.port p).reply ∧ ((s.resetPort p).port p).operation = (s.port p).operation ∧
    ((s.resetPort p).port p).discardMark = (s.port p).discardMark ∧
    ((s.resetPort p).port p).resetLine = (s.port p).resetLine := by
  obtain ⟨hrole, hstate, hreply, hop, hmark, -, -, -, -, hline, -⟩ := PortRecord.mk.inj ((Ports.Posts.resetPort s p).link p)
  exact ⟨hrole, hstate, hreply, hop, hmark, hline⟩

section
variable {s : State} {p : Port}

/-- R189: the command of PORT-RESET. -/
theorem exec_portReset (tag : Byte) (h : s.listens p) (ha : s.allows p .query) : exec (.portReset p tag) s =
    .next ((s.resetPort p).answered p tag 0 (s.marked p)
      { status := .ok, results := [BitVec.ofNat 8 (s.endsAtReset p).length] }) := by
  have hslots : (s.heard p 0).endableSlots p = (s.endsAtReset p).map (fun e => e.1) := by
    rw [State.endableSlots, State.holdsOf, List.filter_filter, State.endsAtReset]
    exact congrArg _ (List.filter_congr fun e _ => Bool.and_comm ..)
  have hh : handle p .portReset (s.heard p (operandLength .portReset)) =
      (.reply { status := .ok, results := [BitVec.ofNat 8 (s.endsAtReset p).length] }, (s.heard p 0).resetPort p) := by
    change portReset p (s.heard p 0) = _
    rw [portReset, hslots, List.length_map]
    rfl
  rw [exec_request (r := .portReset) rfl, request_reply (r := .portReset) tag h ha rfl rfl hh, State.resetPort_heard]

/-- R190: a port under the assertion of its line, with its reset begun. -/
def PortRecord.underLine (p : Port) (q : PortRecord) : PortRecord := { q with
  resetLine := true, span := spanUnderLine p q, cuts := q.cuts + 1, reply := none,
  state := if q.state = .executing then .executing else .idle, discardMark := decide (q.state = .executing) }

theorem PortRecord.cutOff_eq (p : Port) (q : PortRecord) : q.cutOff p = q.underLine p := by
  rw [PortRecord.underLine, ← PortRecord.cutSpan_mute]
  rfl

/-- R190: the command of the line's assertion. -/
theorem exec_portResetLine (h : s.resetHeld = none) :
    exec (.portResetLine p) s = .next ((s.changePort p (PortRecord.underLine p)).resetPort p).driveAttn := by
  change finish _ = _
  rw [h, State.changePort_congr (PortRecord.cutOff_eq p (s.port p))]
  rfl

/-- R183, R190: the end of a transaction that sends 0x00 to its end, or from its abandonment on, whatever its bytes would do. -/
theorem State.endSpan_muted (h : s.spanOf p = .muted) (n : Nat) (take : State → State) :
    s.endSpan p n take = s.changePort p (fun q => { q with span := none, sent := List.replicate n 0#8 }) := by
  rw [State.endSpan, h]
  simp only [State.closeSpan, h]
  refine State.changePort_congr ?_
  simp [sentBytes, spanHead, spanTail, Span.isLost]

theorem State.endSpan_abandoned {before : List Byte} (h : s.spanOf p = .abandoned before) (n : Nat) (take : State → State) :
    s.endSpan p n take = s.changePort p (fun q => { q with
      span := none, sent := (before ++ List.replicate n 0#8).take n }) := by
  rw [State.endSpan, h]
  simp only [State.closeSpan, h]
  rfl

/-- R190: a transaction that began, or begins, under the line is muted. -/
theorem State.spanOf_muted (h : (s.port p).span = some .muted ∨ ((s.port p).span = none ∧ (s.port p).resetLine = true)) :
    s.spanOf p = .muted := by
  rcases h with h | ⟨h, hline⟩
  · rw [State.spanOf, h, Option.getD_some]
  · rw [State.spanOf, h, Option.getD_none, State.spanNow, if_pos hline]

end

end Sys2Proof.Machine

namespace Sys2Proof.Settled

open Sys2Proof.Machine

/-- Settles O32: the reply comes after the reset of the port, which leaves the port's operation. -/
theorem portReset : Obligations.PortReset := by
  unfold Obligations.PortReset
  intro p tag s h ha htables hmemory
  obtain ⟨-, -, -, -, hholds⟩ := htables
  obtain ⟨-, hmem⟩ := hmemory
  obtain ⟨-, -, -, hop, hmark, -⟩ := s.resetPort_kept p
  refine ⟨_, exec_portReset tag h ha, ⟨_, resetPort_spec p hholds hmem, rfl⟩,
    portResetLeaves_answered (portResetLeaves_resetPort hholds p) .., ?_⟩
  rw [State.answered, State.replied, State.port_driveAttn, State.port_changePort_same]
  exact ⟨rfl, rfl, hop, hmark⟩

/-- Settles O33: the assertion is the reset of a port whose transaction, reply and operation it has cut off. -/
theorem portResetLines : Obligations.PortResetLines := by
  unfold Obligations.PortResetLines
  intro p s
  refine ⟨fun h htables hmemory => ?_, fun rx x before hsp => ?_, fun h => ?_,
    fun hsp => ⟨fun rx x => ?_, fun i tag r hi => ?_⟩, rfl⟩
  · obtain ⟨-, -, -, -, hholds⟩ := htables
    obtain ⟨-, hmem⟩ := hmemory
    have hends := resetPort_spec (s := s.changePort p (PortRecord.underLine p)) p hholds hmem
    have hleaves := portResetLeaves_resetPort (s := s.changePort p (PortRecord.underLine p)) hholds p
    obtain ⟨hrole, hstate, hreply, hop, hmark, hline⟩ := (s.changePort p (PortRecord.underLine p)).resetPort_kept p
    rw [State.changePort_changePort] at hends
    rw [State.port_changePort_same] at hrole hstate hreply hop hmark hline
    refine ⟨_, exec_portResetLine h, ⟨_, hends, rfl⟩, portResetLeaves_driveAttn (portResetLeaves_of_changePort hleaves), ?_⟩
    rw [State.port_driveAttn]
    exact ⟨hline, hreply, hop, hrole,
      fun hst => ⟨hstate.trans (if_pos hst), hmark.trans (decide_eq_true hst)⟩,
      fun hst => ⟨hstate.trans (if_neg hst), hmark.trans (decide_eq_false hst)⟩⟩
  · have hspan : s.spanOf p = .abandoned before := by rw [State.spanOf, hsp, Option.getD_some]
    exact congrArg finish (State.endSpan_abandoned hspan _ _)
  · change finish _ = _
    rw [if_pos (Option.isSome_iff_ne_none.2 h)]
    refine congrArg finish (State.changePort_congr ?_)
    rw [← PortRecord.cutSpan_mute]
    rfl
  · exact congrArg finish (State.endSpan_muted (State.spanOf_muted hsp) _ _)
  · rw [exec_request hi]
    exact congrArg finish (State.endSpan_muted (State.spanOf_muted hsp) _ _)

end Sys2Proof.Settled
end

section
/-! SUPPORT. The step on a queue that is not empty, and the statement on it. -/

namespace Sys2Proof.Machine

theorem step_of_pending_cons {s : State} {c : Instr} {rest : List Instr} (h : s.pending = c :: rest) :
    step s = exec c { s with pending := rest } := by
  rw [step, h]

end Sys2Proof.Machine

namespace Sys2Proof.Settled

open Sys2Proof.Machine

/-- Settles O1: the queue's front decides which branch of the step is taken. -/
theorem stepRunsFrontCommand : Obligations.StepRunsFrontCommand := by
  unfold Obligations.StepRunsFrontCommand
  exact fun _ _ _ h => step_of_pending_cons h

end Sys2Proof.Settled
end
